-- ==== Sys2Proof/Word.lean ====
section
/-!
DEFINITION. The machine word and its two readings (spec `00_scope.md` R7, R8).
-/

namespace Sys2Proof

/-- A word: a 32-bit pattern, used as data, as an address or as a packed instruction (R8; `XLEN` of R6). -/
abbrev Word := BitVec 32

/-- The number of a general register, taken from a 4-bit instruction field (R20). -/
abbrev RegNum := BitVec 4

/-- The number of a disk slot, taken from a 4-bit instruction field (R230). -/
abbrev Slot := BitVec 4

/-- The value of an opcode field, `0..255` (R70). -/
abbrev Opcode := BitVec 8

/-- The field `a3`: an absolute word address or an immediate (R70, R75, R76). -/
abbrev Arg16 := BitVec 16

/-- The one-bit format control of the console instructions (R220). -/
abbrev Fmt := BitVec 1

/-- `signed(w)`: the two's-complement value of a word (R8). -/
abbrev signed (w : Word) : Int := w.toInt

/-- `unsigned(w)`: the value of a word in `0..2^32-1` (R8). -/
abbrev unsigned (w : Word) : Nat := w.toNat

/-- `MIN = -2^31` (R8). -/
abbrev minInt : Int := -2147483648

/-- `MAX = 2^31 - 1` (R8). -/
abbrev maxInt : Int := 2147483647

end Sys2Proof
end

