-- ==== Sys2Proof/Config.lean ====
section
/-!
DEFINITION. What an implementation of the core fixes before reset (the parameters of spec `00_scope.md` R6), the events of
its output streams (`10_state.md` R43, R44), and the environment oracle `ENV` (R45) as two free values.
-/

namespace Sys2Proof

/-- The 70 operations a dispatch table can name (R78). Semantics belong to the operation, never to an opcode number (R78). `ret` is the spec's
`END`, `openSlot` its `OPEN`, `closeSlot` its `CLOSE` (those three words are taken by Lean). -/
inductive Op where
  -- Halt (`47_halt.md`)
  | halt
  | halte
  -- Move, load immediate, load, store (`41_move_load_store.md`)
  | mov
  | movra
  | movar
  | movrj
  | movjr
  | movaj
  | movja
  | ldi
  | ldia
  | ldij
  | ld
  | lda
  | ldj
  | st
  | sta
  | stj
  -- Arithmetic (`42_arithmetic.md`)
  | add
  | addar
  | addaj
  | sub
  | subar
  | subaj
  | mult
  | multar
  | multaj
  | div
  | divar
  | divaj
  | mod
  | modar
  | modaj
  -- Bitwise and shift (`43_bitwise_shift.md`)
  | and
  | andar
  | andaj
  | or
  | orar
  | oraj
  | not
  | nota
  | notj
  | shl
  | shlar
  | shlaj
  | shr
  | shrar
  | shraj
  -- Compare (`44_compare.md`)
  | cmp
  | cmpar
  | cmpaj
  | cmprm
  | cmpam
  -- Branch (`45_branch.md`)
  | bran
  | brlt
  | breq
  | brgt
  | brle
  | brge
  | brgl
  -- Call and return (`46_call_return.md`)
  | call
  | ret
  -- Console (`48_console_io.md`)
  | wrw
  | wrwa
  | rdw
  | rdwa
  -- Disk (`49_disk_io.md`)
  | openSlot
  | closeSlot
  | fread
  | fwrite
  deriving DecidableEq, Repr

/-- `DISPATCH`: a partial map from opcodes to operations (R6, R78, R102), as rows; the first row of an opcode counts, and an
opcode without a row is unassigned. -/
abbrev Dispatch := List (Opcode × Op)

/-- `IMAGE_ENDIAN`: the byte order of the image file outside the core (R6, R54). DESIGN CHOICE (log 12): the spec gives the
default, little-endian, and not which other values the parameter may take (N17); the model allows these two and no mixed order. -/
inductive Endian where
  | little
  | big
  deriving DecidableEq, Repr

/-- The parameters of R6 that are values. `IMAGE` is an argument of `Machine.boot`; `ENV` is `Config.conRead` and
`Config.diskOpen` below. They are chosen before reset and no step changes them (R102, R266). -/
structure Config where
  /-- `MEMSIZE`, the number of words of main memory. -/
  memSize : Nat
  /-- `DISPATCH`, the dispatch table. -/
  dispatch : Dispatch
  /-- `ABORT_EXIT_CODE`, the exit code of `ABORTED_OOB`. DESIGN CHOICE (log 13): the spec gives the default 1, non-zero and
  not 2 (R6, R35, D21), and neither a sign nor a width; the model allows any integer, `Config.wf` refusing 0 and 2. -/
  abortExitCode : Int
  /-- `IMAGE_ENDIAN`, the byte order of the image file. -/
  imageEndian : Endian
  deriving DecidableEq, Repr

/-- The bounds R6 puts on the parameters: `1 <= MEMSIZE <= 2^31 - 1`, and an abort exit code that is neither 0 nor 2.
That it has no other bound is a DESIGN CHOICE (log 13). -/
abbrev Config.wf (c : Config) : Prop :=
  1 ≤ c.memSize ∧ c.memSize ≤ 2147483647 ∧ c.abortExitCode ≠ 0 ∧ c.abortExitCode ≠ 2

/-- An event of the diagnostic stream `DIAG`: the opcode and the address of the word (R43, R245, R246). -/
inductive DiagEvent where
  | unknownOpcode (op : Opcode) (ic : Word)
  | notImplemented (op : Opcode) (ic : Word)
  deriving DecidableEq, Repr

/-- An event of the console stream `CONOUT`: the format bit and the word (R44). -/
structure ConEvent where
  fmt : Fmt
  word : Word
  deriving DecidableEq, Repr

/-- A request put to the environment oracle (R45). -/
inductive EnvRequest where
  | conRead (fmt : Fmt)
  | diskOpen (slot : Slot)
  | diskClose (slot : Slot)
  deriving DecidableEq, Repr

/-- Everything the core has sent to the outside so far; an answer of `ENV` may depend on it (R45). -/
structure Sent where
  requests : List EnvRequest
  conout : List ConEvent
  diag : List DiagEvent
  deriving DecidableEq, Repr

/-- FREE VALUE (R45, U15; log 4): the answer `(ok, w)` of `ENV.con_read(fmt)` after what the core has sent so far. Nothing is
known of it: a claim holds for every answer. -/
opaque Config.conRead : Sent → Fmt → Bool × Word

/-- FREE VALUE (R45, U15; log 4): the answer `ok` of `ENV.disk_open(slot)` after what the core has sent so far. -/
opaque Config.diskOpen : Sent → Slot → Bool

end Sys2Proof
end

