-- ==== Sys2Proof/Syntax.lean ====
section
/-!
DEFINITION. The instructions of the core: one constructor for each row of `spec/opcode_table.json` (spec `30_encoding.md`
R74, R78).
-/

namespace Sys2Proof

/-- An instruction with the operands of its form (R74). Operand classes `A` (accumulator) and `J` (link register) are never
encoded: the constructor itself selects them. `ret`, `openSlot`, `closeSlot` are the spec's `END`, `OPEN`, `CLOSE`. The two
stream stubs carry the opcode under which they were dispatched, because the event they report holds it (R233, R234; log 8). -/
inductive Instr where
  -- Halt (`47_halt.md`)
  /-- `HALT` (R215). -/
  | halt
  /-- `HALTE` (R216). -/
  | halte
  -- Move, load immediate, load, store (`41_move_load_store.md`)
  /-- `MOV rA, rB` (R111). -/
  | mov (ra rb : RegNum)
  /-- `MOVRA rA` (R112). -/
  | movra (ra : RegNum)
  /-- `MOVAR rA` (R113). -/
  | movar (ra : RegNum)
  /-- `MOVRJ rA` (R114). -/
  | movrj (ra : RegNum)
  /-- `MOVJR rA` (R115). -/
  | movjr (ra : RegNum)
  /-- `MOVAJ` (R116). -/
  | movaj
  /-- `MOVJA` (R117). -/
  | movja
  /-- `LDI rA, imm` (R118). -/
  | ldi (rd : RegNum) (imm : Arg16)
  /-- `LDIA imm` (R119). -/
  | ldia (imm : Arg16)
  /-- `LDIJ imm` (R120). -/
  | ldij (imm : Arg16)
  /-- `LD rA, addr` (R121). -/
  | ld (ra : RegNum) (addr : Arg16)
  /-- `LDA addr` (R122). -/
  | lda (addr : Arg16)
  /-- `LDJ addr` (R123). -/
  | ldj (addr : Arg16)
  /-- `ST rA, addr` (R124). -/
  | st (ra : RegNum) (addr : Arg16)
  /-- `STA addr` (R125). -/
  | sta (addr : Arg16)
  /-- `STJ addr` (R126). -/
  | stj (addr : Arg16)
  -- Arithmetic (`42_arithmetic.md`)
  /-- `ADD rA, rB` (R137). -/
  | add (ra rb : RegNum)
  /-- `ADDAR rA` (R138). -/
  | addar (ra : RegNum)
  /-- `ADDAJ` (R139). -/
  | addaj
  /-- `SUB rA, rB` (R140). -/
  | sub (ra rb : RegNum)
  /-- `SUBAR rA` (R141). -/
  | subar (ra : RegNum)
  /-- `SUBAJ` (R142). -/
  | subaj
  /-- `MULT rA, rB` (R143). -/
  | mult (ra rb : RegNum)
  /-- `MULTAR rA` (R144). -/
  | multar (ra : RegNum)
  /-- `MULTAJ` (R145). -/
  | multaj
  /-- `DIV rA, rB` (R146). -/
  | div (ra rb : RegNum)
  /-- `DIVAR rA` (R147). -/
  | divar (ra : RegNum)
  /-- `DIVAJ` (R148). -/
  | divaj
  /-- `MOD rA, rB` (R149). -/
  | mod (ra rb : RegNum)
  /-- `MODAR rA` (R150). -/
  | modar (ra : RegNum)
  /-- `MODAJ` (R151). -/
  | modaj
  -- Bitwise and shift (`43_bitwise_shift.md`)
  /-- `AND rA, rB` (R158). -/
  | and (ra rb : RegNum)
  /-- `ANDAR rA` (R159). -/
  | andar (ra : RegNum)
  /-- `ANDAJ` (R160). -/
  | andaj
  /-- `OR rA, rB` (R161). -/
  | or (ra rb : RegNum)
  /-- `ORAR rA` (R162). -/
  | orar (ra : RegNum)
  /-- `ORAJ` (R163). -/
  | oraj
  /-- `NOT rA` (R164). -/
  | not (ra : RegNum)
  /-- `NOTA` (R165). -/
  | nota
  /-- `NOTJ` (R166). -/
  | notj
  /-- `SHL rA, rB` (R167). -/
  | shl (ra rb : RegNum)
  /-- `SHLAR rA` (R168). -/
  | shlar (ra : RegNum)
  /-- `SHLAJ` (R169). -/
  | shlaj
  /-- `SHR rA, rB` (R170). -/
  | shr (ra rb : RegNum)
  /-- `SHRAR rA` (R171). -/
  | shrar (ra : RegNum)
  /-- `SHRAJ` (R172). -/
  | shraj
  -- Compare (`44_compare.md`)
  /-- `CMP rA, rB` (R181). -/
  | cmp (ra rb : RegNum)
  /-- `CMPAR rA` (R182). -/
  | cmpar (ra : RegNum)
  /-- `CMPAJ` (R183). -/
  | cmpaj
  /-- `CMPRM rA, addr` (R184). -/
  | cmprm (ra : RegNum) (addr : Arg16)
  /-- `CMPAM addr` (R185). -/
  | cmpam (addr : Arg16)
  -- Branch (`45_branch.md`)
  /-- `BRAN target` (R192). -/
  | bran (target : Arg16)
  /-- `BRLT target` (R193). -/
  | brlt (target : Arg16)
  /-- `BREQ target` (R194). -/
  | breq (target : Arg16)
  /-- `BRGT target` (R195). -/
  | brgt (target : Arg16)
  /-- `BRLE target` (R196). -/
  | brle (target : Arg16)
  /-- `BRGE target` (R197). -/
  | brge (target : Arg16)
  /-- `BRGL target` (R198). -/
  | brgl (target : Arg16)
  -- Call and return (`46_call_return.md`)
  /-- `CALL target` (R206). -/
  | call (target : Arg16)
  /-- `END` (R207). -/
  | ret
  -- Console (`48_console_io.md`)
  /-- `WRW rA, fmt` (R221). -/
  | wrw (ra : RegNum) (fmt : Fmt)
  /-- `WRWA fmt` (R222). -/
  | wrwa (fmt : Fmt)
  /-- `RDW rA, fmt` (R223). -/
  | rdw (ra : RegNum) (fmt : Fmt)
  /-- `RDWA fmt` (R224). -/
  | rdwa (fmt : Fmt)
  -- Disk (`49_disk_io.md`)
  /-- `OPEN slot` (R231). -/
  | openSlot (slot : Slot)
  /-- `CLOSE slot` (R232). -/
  | closeSlot (slot : Slot)
  /-- `FREAD` (R233). -/
  | fread (op : Opcode)
  /-- `FWRITE` (R234). -/
  | fwrite (op : Opcode)
  deriving DecidableEq, Repr

/-- A word as the codec takes it apart: the four fields of the one instruction format (R70). -/
structure Fields where
  op : Opcode
  a1 : BitVec 4
  a2 : BitVec 4
  a3 : Arg16
  deriving DecidableEq, Repr

end Sys2Proof
end

