-- ==== Sys2Proof/Decode.lean ====
section
/-!
DEFINITION. The codec and the dispatch table (spec `30_encoding.md`): a word into its four fields (R71), the fields into an
instruction through `DISPATCH` (R78, R94), and back (R72, R73, R83). Decoding is total; the only rejection is an unassigned
opcode, by name (R79).
-/

namespace Sys2Proof

/-- Why a word is no instruction. There is one reason: its opcode has no entry in the dispatch table (R79, R80). Raised by
`decode`; the engine reports it and goes on (R95), so it never stops the machine. -/
inductive DecodeError where
  | unassignedOpcode (op : Opcode)
  deriving DecidableEq, Repr

/-! ## The codec (R71 to R73) -/

/-- `decode(w) -> (op, a1, a2, a3)` of R71: the four fields of a word. -/
def fieldsOf (w : Word) : Fields :=
  { op := w.extractLsb' 24 8, a1 := w.extractLsb' 20 4, a2 := w.extractLsb' 16 4, a3 := w.extractLsb' 0 16 }

/-- `encode(opcode, arg1, arg2, arg3)` of R72, on any integers: each is masked to the width of its field. -/
def encodeInts (opcode arg1 arg2 arg3 : Int) : Word :=
  (BitVec.ofInt 32 (opcode % 256) <<< 24) ||| (BitVec.ofInt 32 (arg1 % 16) <<< 20) |||
    (BitVec.ofInt 32 (arg2 % 16) <<< 16) ||| BitVec.ofInt 32 (arg3 % 65536)

/-- `patch_arg3(word, new_arg3)` of R73: only the low 16 bits change. -/
def patchArg3 (w : Word) (newArg3 : Int) : Word :=
  (w &&& 0xFFFF0000#32) ||| BitVec.ofInt 32 (newArg3 % 65536)

/-- The word of four fields: `encode` of R72 on field values. -/
def wordOf (f : Fields) : Word :=
  encodeInts f.op.toNat f.a1.toNat f.a2.toNat f.a3.toNat

/-! ## The default dispatch table (R78) -/

/-- Rows of R78: Halt (`47_halt.md`). -/
def haltRows : Dispatch :=
  [(0x01#8, .halt), (0x02#8, .halte)]

/-- Rows of R78: Move, load immediate, load, store (`41_move_load_store.md`). -/
def moveRows : Dispatch :=
  [(0x10#8, .mov), (0x11#8, .movra), (0x12#8, .movar), (0x13#8, .movrj), (0x14#8, .movjr), (0x15#8, .movaj),
   (0x16#8, .movja), (0x18#8, .ldi), (0x19#8, .ldia), (0x1A#8, .ldij), (0x20#8, .ld), (0x21#8, .lda),
   (0x22#8, .ldj), (0x28#8, .st), (0x29#8, .sta), (0x2A#8, .stj)]

/-- Rows of R78: Arithmetic (`42_arithmetic.md`). -/
def arithmeticRows : Dispatch :=
  [(0x30#8, .add), (0x31#8, .addar), (0x32#8, .addaj), (0x34#8, .sub), (0x35#8, .subar), (0x36#8, .subaj),
   (0x38#8, .mult), (0x39#8, .multar), (0x3A#8, .multaj), (0x3C#8, .div), (0x3D#8, .divar), (0x3E#8, .divaj),
   (0x40#8, .mod), (0x41#8, .modar), (0x42#8, .modaj)]

/-- Rows of R78: Bitwise and shift (`43_bitwise_shift.md`). -/
def bitwiseRows : Dispatch :=
  [(0x50#8, .and), (0x51#8, .andar), (0x52#8, .andaj), (0x54#8, .or), (0x55#8, .orar), (0x56#8, .oraj),
   (0x58#8, .not), (0x59#8, .nota), (0x5A#8, .notj), (0x5C#8, .shl), (0x5D#8, .shlar), (0x5E#8, .shlaj),
   (0x60#8, .shr), (0x61#8, .shrar), (0x62#8, .shraj)]

/-- Rows of R78: Compare (`44_compare.md`). -/
def compareRows : Dispatch :=
  [(0x70#8, .cmp), (0x71#8, .cmpar), (0x72#8, .cmpaj), (0x73#8, .cmprm), (0x74#8, .cmpam)]

/-- Rows of R78: Branch (`45_branch.md`). -/
def branchRows : Dispatch :=
  [(0x80#8, .bran), (0x81#8, .brlt), (0x82#8, .breq), (0x83#8, .brgt), (0x84#8, .brle), (0x85#8, .brge),
   (0x86#8, .brgl)]

/-- Rows of R78: Call and return (`46_call_return.md`). -/
def callRows : Dispatch :=
  [(0x90#8, .call), (0x91#8, .ret)]

/-- Rows of R78: Console (`48_console_io.md`). -/
def consoleRows : Dispatch :=
  [(0xA0#8, .wrw), (0xA1#8, .wrwa), (0xA2#8, .rdw), (0xA3#8, .rdwa)]

/-- Rows of R78: Disk (`49_disk_io.md`). -/
def diskRows : Dispatch :=
  [(0xB0#8, .openSlot), (0xB1#8, .closeSlot), (0xB2#8, .fread), (0xB3#8, .fwrite)]

/-- The default value of `DISPATCH`: the table of R78. -/
def Dispatch.default : Dispatch :=
  haltRows ++ moveRows ++ arithmeticRows ++ bitwiseRows ++ compareRows ++ branchRows ++ callRows ++ consoleRows ++ diskRows

/-- `DISPATCH[op]`: the operation an opcode selects, or none (R94). The other fields take no part. -/
def Dispatch.lookup (d : Dispatch) (o : Opcode) : Option Op :=
  (d.find? fun row => row.1 == o).map (·.2)

/-- An opcode that selects an operation, if the table has one. -/
def Dispatch.opcodeOf (d : Dispatch) (op : Op) : Option Opcode :=
  (d.find? fun row => row.2 == op && d.lookup row.1 == some op).map (·.1)

/-! ## Fields and instructions (R74) -/

/-- The format control bit of a console instruction: bit 0 of `a2`; bits 3:1 are ignored (R220). -/
def fmtOf (a2 : BitVec 4) : Fmt :=
  a2.extractLsb' 0 1

/-- The instruction of an operation and the decoded fields: each form takes its own fields and ignores the others (R74,
R77). -/
def Op.instr (op : Op) (f : Fields) : Instr :=
  match op with
  | .halt => .halt
  | .halte => .halte
  | .mov => .mov f.a1 f.a2
  | .movra => .movra f.a1
  | .movar => .movar f.a1
  | .movrj => .movrj f.a1
  | .movjr => .movjr f.a1
  | .movaj => .movaj
  | .movja => .movja
  | .ldi => .ldi f.a1 f.a3
  | .ldia => .ldia f.a3
  | .ldij => .ldij f.a3
  | .ld => .ld f.a1 f.a3
  | .lda => .lda f.a3
  | .ldj => .ldj f.a3
  | .st => .st f.a1 f.a3
  | .sta => .sta f.a3
  | .stj => .stj f.a3
  | .add => .add f.a1 f.a2
  | .addar => .addar f.a1
  | .addaj => .addaj
  | .sub => .sub f.a1 f.a2
  | .subar => .subar f.a1
  | .subaj => .subaj
  | .mult => .mult f.a1 f.a2
  | .multar => .multar f.a1
  | .multaj => .multaj
  | .div => .div f.a1 f.a2
  | .divar => .divar f.a1
  | .divaj => .divaj
  | .mod => .mod f.a1 f.a2
  | .modar => .modar f.a1
  | .modaj => .modaj
  | .and => .and f.a1 f.a2
  | .andar => .andar f.a1
  | .andaj => .andaj
  | .or => .or f.a1 f.a2
  | .orar => .orar f.a1
  | .oraj => .oraj
  | .not => .not f.a1
  | .nota => .nota
  | .notj => .notj
  | .shl => .shl f.a1 f.a2
  | .shlar => .shlar f.a1
  | .shlaj => .shlaj
  | .shr => .shr f.a1 f.a2
  | .shrar => .shrar f.a1
  | .shraj => .shraj
  | .cmp => .cmp f.a1 f.a2
  | .cmpar => .cmpar f.a1
  | .cmpaj => .cmpaj
  | .cmprm => .cmprm f.a1 f.a3
  | .cmpam => .cmpam f.a3
  | .bran => .bran f.a3
  | .brlt => .brlt f.a3
  | .breq => .breq f.a3
  | .brgt => .brgt f.a3
  | .brle => .brle f.a3
  | .brge => .brge f.a3
  | .brgl => .brgl f.a3
  | .call => .call f.a3
  | .ret => .ret
  | .wrw => .wrw f.a1 (fmtOf f.a2)
  | .wrwa => .wrwa (fmtOf f.a2)
  | .rdw => .rdw f.a1 (fmtOf f.a2)
  | .rdwa => .rdwa (fmtOf f.a2)
  | .openSlot => .openSlot f.a1
  | .closeSlot => .closeSlot f.a1
  | .fread => .fread f.op
  | .fwrite => .fwrite f.op

/-- The operation of an instruction. -/
def Instr.op : Instr → Op
  | .halt => .halt
  | .halte => .halte
  | .mov _ _ => .mov
  | .movra _ => .movra
  | .movar _ => .movar
  | .movrj _ => .movrj
  | .movjr _ => .movjr
  | .movaj => .movaj
  | .movja => .movja
  | .ldi _ _ => .ldi
  | .ldia _ => .ldia
  | .ldij _ => .ldij
  | .ld _ _ => .ld
  | .lda _ => .lda
  | .ldj _ => .ldj
  | .st _ _ => .st
  | .sta _ => .sta
  | .stj _ => .stj
  | .add _ _ => .add
  | .addar _ => .addar
  | .addaj => .addaj
  | .sub _ _ => .sub
  | .subar _ => .subar
  | .subaj => .subaj
  | .mult _ _ => .mult
  | .multar _ => .multar
  | .multaj => .multaj
  | .div _ _ => .div
  | .divar _ => .divar
  | .divaj => .divaj
  | .mod _ _ => .mod
  | .modar _ => .modar
  | .modaj => .modaj
  | .and _ _ => .and
  | .andar _ => .andar
  | .andaj => .andaj
  | .or _ _ => .or
  | .orar _ => .orar
  | .oraj => .oraj
  | .not _ => .not
  | .nota => .nota
  | .notj => .notj
  | .shl _ _ => .shl
  | .shlar _ => .shlar
  | .shlaj => .shlaj
  | .shr _ _ => .shr
  | .shrar _ => .shrar
  | .shraj => .shraj
  | .cmp _ _ => .cmp
  | .cmpar _ => .cmpar
  | .cmpaj => .cmpaj
  | .cmprm _ _ => .cmprm
  | .cmpam _ => .cmpam
  | .bran _ => .bran
  | .brlt _ => .brlt
  | .breq _ => .breq
  | .brgt _ => .brgt
  | .brle _ => .brle
  | .brge _ => .brge
  | .brgl _ => .brgl
  | .call _ => .call
  | .ret => .ret
  | .wrw _ _ => .wrw
  | .wrwa _ => .wrwa
  | .rdw _ _ => .rdw
  | .rdwa _ => .rdwa
  | .openSlot _ => .openSlot
  | .closeSlot _ => .closeSlot
  | .fread _ => .fread
  | .fwrite _ => .fwrite

/-- The fields of an instruction under an opcode; ignored fields are 0, as the assembler writes them (R74, R83). -/
def Instr.fields (i : Instr) (op : Opcode) : Fields :=
  match i with
  | .halt => ⟨op, 0, 0, 0⟩
  | .halte => ⟨op, 0, 0, 0⟩
  | .mov ra rb => ⟨op, ra, rb, 0⟩
  | .movra ra => ⟨op, ra, 0, 0⟩
  | .movar ra => ⟨op, ra, 0, 0⟩
  | .movrj ra => ⟨op, ra, 0, 0⟩
  | .movjr ra => ⟨op, ra, 0, 0⟩
  | .movaj => ⟨op, 0, 0, 0⟩
  | .movja => ⟨op, 0, 0, 0⟩
  | .ldi rd imm => ⟨op, rd, 0, imm⟩
  | .ldia imm => ⟨op, 0, 0, imm⟩
  | .ldij imm => ⟨op, 0, 0, imm⟩
  | .ld ra addr => ⟨op, ra, 0, addr⟩
  | .lda addr => ⟨op, 0, 0, addr⟩
  | .ldj addr => ⟨op, 0, 0, addr⟩
  | .st ra addr => ⟨op, ra, 0, addr⟩
  | .sta addr => ⟨op, 0, 0, addr⟩
  | .stj addr => ⟨op, 0, 0, addr⟩
  | .add ra rb => ⟨op, ra, rb, 0⟩
  | .addar ra => ⟨op, ra, 0, 0⟩
  | .addaj => ⟨op, 0, 0, 0⟩
  | .sub ra rb => ⟨op, ra, rb, 0⟩
  | .subar ra => ⟨op, ra, 0, 0⟩
  | .subaj => ⟨op, 0, 0, 0⟩
  | .mult ra rb => ⟨op, ra, rb, 0⟩
  | .multar ra => ⟨op, ra, 0, 0⟩
  | .multaj => ⟨op, 0, 0, 0⟩
  | .div ra rb => ⟨op, ra, rb, 0⟩
  | .divar ra => ⟨op, ra, 0, 0⟩
  | .divaj => ⟨op, 0, 0, 0⟩
  | .mod ra rb => ⟨op, ra, rb, 0⟩
  | .modar ra => ⟨op, ra, 0, 0⟩
  | .modaj => ⟨op, 0, 0, 0⟩
  | .and ra rb => ⟨op, ra, rb, 0⟩
  | .andar ra => ⟨op, ra, 0, 0⟩
  | .andaj => ⟨op, 0, 0, 0⟩
  | .or ra rb => ⟨op, ra, rb, 0⟩
  | .orar ra => ⟨op, ra, 0, 0⟩
  | .oraj => ⟨op, 0, 0, 0⟩
  | .not ra => ⟨op, ra, 0, 0⟩
  | .nota => ⟨op, 0, 0, 0⟩
  | .notj => ⟨op, 0, 0, 0⟩
  | .shl ra rb => ⟨op, ra, rb, 0⟩
  | .shlar ra => ⟨op, ra, 0, 0⟩
  | .shlaj => ⟨op, 0, 0, 0⟩
  | .shr ra rb => ⟨op, ra, rb, 0⟩
  | .shrar ra => ⟨op, ra, 0, 0⟩
  | .shraj => ⟨op, 0, 0, 0⟩
  | .cmp ra rb => ⟨op, ra, rb, 0⟩
  | .cmpar ra => ⟨op, ra, 0, 0⟩
  | .cmpaj => ⟨op, 0, 0, 0⟩
  | .cmprm ra addr => ⟨op, ra, 0, addr⟩
  | .cmpam addr => ⟨op, 0, 0, addr⟩
  | .bran target => ⟨op, 0, 0, target⟩
  | .brlt target => ⟨op, 0, 0, target⟩
  | .breq target => ⟨op, 0, 0, target⟩
  | .brgt target => ⟨op, 0, 0, target⟩
  | .brle target => ⟨op, 0, 0, target⟩
  | .brge target => ⟨op, 0, 0, target⟩
  | .brgl target => ⟨op, 0, 0, target⟩
  | .call target => ⟨op, 0, 0, target⟩
  | .ret => ⟨op, 0, 0, 0⟩
  | .wrw ra fmt => ⟨op, ra, fmt.zeroExtend 4, 0⟩
  | .wrwa fmt => ⟨op, 0, fmt.zeroExtend 4, 0⟩
  | .rdw ra fmt => ⟨op, ra, fmt.zeroExtend 4, 0⟩
  | .rdwa fmt => ⟨op, 0, fmt.zeroExtend 4, 0⟩
  | .openSlot slot => ⟨op, slot, 0, 0⟩
  | .closeSlot slot => ⟨op, slot, 0, 0⟩
  | .fread _ => ⟨op, 0, 0, 0⟩
  | .fwrite _ => ⟨op, 0, 0, 0⟩

/-- The opcode a stream stub carries (R233, R234); other instructions carry none. -/
def Instr.carriedOpcode : Instr → Option Opcode
  | .fread op => some op
  | .fwrite op => some op
  | _ => none

/-- The opcode an instruction is encoded under in a dispatch table: the one a stream stub carries, where it selects that
stub; for every other instruction the table's. -/
def Instr.opcodeIn (i : Instr) (d : Dispatch) : Option Opcode :=
  match i.carriedOpcode with
  | some o => if d.lookup o = some i.op then some o else none
  | none => d.opcodeOf i.op

/-! ## Decoding and encoding -/

/-- The instruction a word is, under a dispatch table: the opcode alone selects the operation (R78, R94). -/
def decode (d : Dispatch) (w : Word) : Except DecodeError Instr :=
  let f := fieldsOf w
  match d.lookup f.op with
  | some op => .ok (op.instr f)
  | none => .error (.unassignedOpcode f.op)

/-- The word of a well-formed instruction under a dispatch table; none where the table does not name its operation. -/
def encode (d : Dispatch) (i : Instr) : Option Word :=
  (i.opcodeIn d).map fun o => wordOf (i.fields o)

/-- The word whose bits are the low `nbits` bits of `w`, bit 0 the least significant. -/
def tableWord (nbits w : Nat) : Word :=
  BitVec.ofNat 32 (w % 2 ^ nbits)

/-- What the decoder reads from an instruction whose bits are `w`, under the default table. -/
def decodeTableWord (nbits w : Nat) : Option Instr :=
  (decode Dispatch.default (tableWord nbits w)).toOption

end Sys2Proof
end

