-- ==== Sys2Proof/Machine/Params.lean ====
section
/-!
DEFINITION. The default values of the parameters (spec `00_scope.md` R6).
-/

namespace Sys2Proof

/-- The defaults of R6: 1024 words of memory, R78's dispatch table, exit code 1 for an abort, a little-endian image file. -/
def Config.default : Config :=
  { memSize := 1024, dispatch := Dispatch.default, abortExitCode := 1, imageEndian := .little }

end Sys2Proof
end

