-- ==== Sys2Proof/Machine/State.lean ====
section
/-!
DEFINITION. The whole state of the core (spec `10_state.md` R46), its value after reset (R47), and the reasons a step can
stop.
-/

namespace Sys2Proof.Machine

/-- The run state `run` (R33, R90). The last three are terminal. -/
inductive RunState where
  /-- `RUNNING`. -/
  | running
  /-- `HALTED_OK`. -/
  | haltedOk
  /-- `HALTED_ERROR`. -/
  | haltedError
  /-- `ABORTED_OOB`. -/
  | abortedOob
  deriving DecidableEq, Repr

/-- The abort cause `cause` (R34). -/
inductive AbortCause where
  /-- `NONE`. -/
  | none
  /-- `IC_OOB`: the incremented instruction counter left memory (R241). -/
  | icOob
  /-- `DATA_OOB`: a data address outside memory (R242). -/
  | dataOob
  /-- `CSTACK_OOB`: a push onto a full call stack (R243). -/
  | cstackOob
  deriving DecidableEq, Repr

/-- Main memory as the list of its words that are not 0, by word address, addresses strictly rising (R42, R50; log 1). A word
that is not listed is 0, its reset value beyond the image (R47). -/
abbrev Memory := List (Nat × Word)

/-- The state of the core (R46), and two fields of the model's own: `envLog` and `cfg`. -/
structure State where
  /-- `x[0]` .. `x[15]`, the general registers (R20). -/
  x : Vector Word 16
  /-- `acc`, the accumulator (R22). -/
  acc : Word
  /-- `jmp`, the link register (R23). -/
  jmp : Word
  /-- `ic`, the instruction counter (R24). -/
  ic : Word
  /-- `flag.LT` (R27). -/
  flagLt : Bool
  /-- `flag.EQ` (R27). -/
  flagEq : Bool
  /-- `flag.GT` (R27). -/
  flagGt : Bool
  /-- `flag.OVF` (R28). -/
  flagOvf : Bool
  /-- `flag.DBZ` (R28). -/
  flagDbz : Bool
  /-- `flag.IOERR` (R28). -/
  flagIoerr : Bool
  /-- `run`, the run state (R33). -/
  run : RunState
  /-- `cause`, the abort cause (R34). -/
  cause : AbortCause
  /-- `cstack[0]` .. `cstack[99]`, the call stack (R37). -/
  cstack : Vector Word 100
  /-- `top`, the number of entries on the call stack, `0..100` (R38; log 10). -/
  top : Fin 101
  /-- `handle[0]` .. `handle[15]`: the open disk slots (R40). -/
  handle : Vector Bool 16
  /-- `mem`, main memory (R42). -/
  mem : Memory
  /-- `DIAG`, the diagnostic stream, oldest event first (R43). -/
  diag : List DiagEvent
  /-- `CONOUT`, the console stream, oldest event first (R44). -/
  conout : List ConEvent
  /-- The model's own: the requests put to `ENV`, oldest first (R45; log 4). -/
  envLog : List EnvRequest
  /-- The model's own: the parameters the core was built with (R6; log 2). No step changes them. -/
  cfg : Config
  deriving DecidableEq, Repr

/-- Why a step stops with a fault. -/
inductive Fault where
  /-- Raised by the engine's fetch when `ic` is outside memory while the core runs. No run reaches such a state (R98), and the
  spec gives it no step. SAFE: the model stops where the spec says nothing (log 6). -/
  | fetchOutsideMemory
  deriving DecidableEq, Repr

/-- Why a step is refused. -/
inductive Refusal where
  /-- The instruction has no meaning in the model. Raised by nobody: every instruction has its meaning. SAFE. -/
  | notModelled (mnemonic : String)
  deriving DecidableEq, Repr

/-- The machine right after reset (R47, R91, R260), with the default parameters of R6 and the empty image that R262 allows:
every memory word is 0. A program is loaded from outside (`boot`; log 3). -/
def State.reset : State :=
  { x := Vector.replicate 16 0
    acc := 0
    jmp := 0
    ic := 0
    flagLt := false
    flagEq := false
    flagGt := false
    flagOvf := false
    flagDbz := false
    flagIoerr := false
    run := .running
    cause := .none
    cstack := Vector.replicate 100 0
    top := 0
    handle := Vector.replicate 16 false
    mem := []
    diag := []
    conout := []
    envLog := []
    cfg := Config.default }

end Sys2Proof.Machine
end

