-- ==== Sys2Proof/Machine/Ops.lean ====
section
/-!
DEFINITION. The named operations every meaning is built from: the memory primitives (spec `20_memory.md` R51, R52), register
access (`00_scope.md` R10), `raise Abort` (R10), the call stack (`46_call_return.md` R208), the output streams
(`10_state.md` R43, R44) and the requests to the environment (R45).

An exceptional event of this core has no handler: taking one is the entry into a terminal run state (`60_exceptions.md`
R249), which is `State.abort`; nothing returns from it but reset (R251).
-/

namespace Sys2Proof

/-- `wrap32(z)`: the word of an exact integer modulo `2^32` (R9). -/
def wrap32 (z : Int) : Word :=
  BitVec.ofInt 32 z

/-- `zext_16(v)`: the word with the unsigned value of a 16-bit field (R9, R75). -/
def zext16 (v : Arg16) : Word :=
  v.zeroExtend 32

namespace Machine

/-! ## Main memory -/

/-- The word at an address: the listed one, or 0 (R42, R47). -/
def Memory.read (m : Memory) (a : Nat) : Word :=
  match m with
  | [] => 0
  | p :: rest => if p.1 = a then p.2 else Memory.read rest a

/-- The memory without any entry for an address. -/
def Memory.erase (m : Memory) (a : Nat) : Memory :=
  m.filter fun p => p.1 ≠ a

/-- An entry put before the first higher address. -/
def Memory.insert (m : Memory) (a : Nat) (v : Word) : Memory :=
  match m with
  | [] => [(a, v)]
  | p :: rest => if a < p.1 then (a, v) :: p :: rest else p :: Memory.insert rest a v

/-- The memory with all 32 bits of one word replaced (R52); a word of 0 is not listed. -/
def Memory.write (m : Memory) (a : Nat) (v : Word) : Memory :=
  if v = 0 then m.erase a else (m.erase a).insert a v

/-- The canonical form: addresses strictly rising and no word equal to what an unlisted address reads as. -/
abbrev Memory.wf (m : Memory) : Prop :=
  m.Pairwise (fun p q => p.1 < q.1) ∧ ∀ p ∈ m, p.2 ≠ 0

/-! ## Registers -/

/-- `x[i]` (R10). -/
def State.readReg (s : State) (i : RegNum) : Word :=
  s.x[i.toNat]

/-- `x[i] <- v` (R10). -/
def State.writeReg (s : State) (i : RegNum) (v : Word) : State :=
  { s with x := s.x.set i.toNat v }

/-! ## Terminal events -/

/-- `raise Abort(c)`: `run <- ABORTED_OOB`, `cause <- c`, no other change (R10). That the instruction ends there, and that the
increment is suppressed, follows from its place in the meaning and from `advance`. -/
def State.abort (s : State) (c : AbortCause) : State :=
  { s with run := .abortedOob, cause := c }

/-! ## Data and fetch accesses to main memory -/

/-- The word at an address of the machine's memory; none where no word exists (R50, R58). -/
def State.memWord (s : State) (a : Nat) : Option Word :=
  if a < s.cfg.memSize then some (s.mem.read a) else none

/-- `v <- MemRead(addr, 1)` followed by what the instruction does with `v`; `Abort(DATA_OOB)` alone where the address does not
exist (R51). -/
def State.withMemRead (s : State) (addr : Nat) (k : Word → State) : State :=
  match s.memWord addr with
  | some v => k v
  | none => s.abort .dataOob

/-- `MemWrite(addr, 1, v)` (R52). -/
def State.memWrite (s : State) (addr : Nat) (v : Word) : State :=
  if addr < s.cfg.memSize then { s with mem := s.mem.write addr v } else s.abort .dataOob

/-! ## The call stack (R208) -/

/-- `push(v)`: write `cstack[top]`, then increment `top`; none where the stack is full. -/
def State.push (s : State) (v : Word) : Option State :=
  if h : s.top.val < 100 then
    some { s with cstack := s.cstack.set s.top.val v, top := ⟨s.top.val + 1, by omega⟩ }
  else none

/-- `pop()`: decrement `top`, then read `cstack[top]`; the slot is not cleared. Called only with `top >= 1`. -/
def State.pop (s : State) (_h : s.top.val ≠ 0) : Word × State :=
  (s.cstack[s.top.val - 1]'(by omega), { s with top := ⟨s.top.val - 1, by omega⟩ })

/-! ## Output streams -/

/-- `diag(e)` (R10, R43). -/
def State.report (s : State) (e : DiagEvent) : State :=
  { s with diag := s.diag ++ [e] }

/-- `con_out((fmt, w))` (R10, R44). -/
def State.conOut (s : State) (fmt : Fmt) (w : Word) : State :=
  { s with conout := s.conout ++ [⟨fmt, w⟩] }

/-! ## Requests to the environment (R45) -/

/-- Everything the core has sent so far. -/
def State.sent (s : State) : Sent :=
  { requests := s.envLog, conout := s.conout, diag := s.diag }

/-- The state after a request was put to `ENV`. -/
def State.ask (s : State) (r : EnvRequest) : State :=
  { s with envLog := s.envLog ++ [r] }

/-! ## The handle table (R40) -/

/-- `handle[slot]`. -/
def State.readHandle (s : State) (slot : Slot) : Bool :=
  s.handle[slot.toNat]

/-- `handle[slot] <- b`. -/
def State.writeHandle (s : State) (slot : Slot) (b : Bool) : State :=
  { s with handle := s.handle.set slot.toNat b }

end Machine

end Sys2Proof
end

