-- ==== Sys2Proof/Machine/Operands.lean ====
section
/-!
DEFINITION. The operand classes of spec `30_encoding.md` R74: `R`, `A` and `J` as places that can be read and written; `I` and
`M` from the field `a3` (R75, R76); branch and call targets (R190).
-/

namespace Sys2Proof.Machine

/-- A register operand: class `R` with its number, class `A` (the accumulator) or class `J` (the link register) (R74). -/
inductive Place where
  | r (n : RegNum)
  | a
  | j
  deriving DecidableEq, Repr

/-- The word a register operand holds. -/
def State.get (s : State) (p : Place) : Word :=
  match p with
  | .r n => s.readReg n
  | .a => s.acc
  | .j => s.jmp

/-- The state with a word written to a register operand. -/
def State.put (s : State) (p : Place) (v : Word) : State :=
  match p with
  | .r n => s.writeReg n v
  | .a => { s with acc := v }
  | .j => { s with jmp := v }

/-- The immediate operand, class `I`: `zext_16(a3)` (R75). -/
def immediate (imm : Arg16) : Word :=
  zext16 imm

/-- The data address of a memory operand, class `M`: `a3` as an unsigned word address (R76). -/
def dataAddress (addr : Arg16) : Nat :=
  addr.toNat

/-- What a control transfer to `a3` writes to `ic`: `wrap32(a3 - 1)`, since the engine then adds 1 (R100, R190). -/
def beforeTarget (target : Arg16) : Word :=
  wrap32 ((target.toNat : Int) - 1)

end Sys2Proof.Machine
end

