-- ==== Sys2Proof/Machine/Flags.lean ====
section
/-!
DEFINITION. Every flag computation of the spec (`10_state.md` R29): overflow (`42_arithmetic.md` R131, R132), divide by zero
(R134), the comparison flags (`44_compare.md` R180) and the conditions the branches read (`45_branch.md` R191).
-/

namespace Sys2Proof.Machine

/-- An exact result outside `MIN..MAX` (R131). -/
def outOfRange (z : Int) : Bool :=
  decide (z > maxInt ∨ z < minInt)

/-- Overflow of a multiply: none where an operand is zero, else the exact product out of range (R132). -/
def multOverflow (a b : Int) : Bool :=
  if a = 0 ∨ b = 0 then false else outOfRange (a * b)

/-- The state with `flag.OVF` written (R29). -/
def State.setOvf (s : State) (b : Bool) : State :=
  { s with flagOvf := b }

/-- The state with `flag.DBZ` written (R29). -/
def State.setDbz (s : State) (b : Bool) : State :=
  { s with flagDbz := b }

/-- The state with `flag.IOERR` written (R29). -/
def State.setIoerr (s : State) (b : Bool) : State :=
  { s with flagIoerr := b }

/-- `compare(p, q)`: all three comparison flags from the signed comparison of the first word with the second (R180). -/
def State.compare (s : State) (p q : Word) : State :=
  { s with
    flagLt := decide (signed p < signed q)
    flagEq := decide (signed p = signed q)
    flagGt := decide (signed p > signed q) }

end Sys2Proof.Machine
end

