-- ==== Sys2Proof/Machine/Arithmetic.lean ====
section
/-!
DEFINITION. Arithmetic (spec `42_arithmetic.md`): operands as signed words, the result to `acc`, exact integers narrowed at the
end by `wrap32` (R130 to R136).
-/

namespace Sys2Proof.Machine

/-- `z <- p + q; flag.OVF <- z outside MIN..MAX; acc <- wrap32(z)` (R131, R133). -/
def State.addOp (s : State) (p q : Place) : State :=
  let z := signed (s.get p) + signed (s.get q)
  (s.setOvf (outOfRange z)).put .a (wrap32 z)

/-- `z <- p - q; flag.OVF <- z outside MIN..MAX; acc <- wrap32(z)` (R131, R133). -/
def State.subOp (s : State) (p q : Place) : State :=
  let z := signed (s.get p) - signed (s.get q)
  (s.setOvf (outOfRange z)).put .a (wrap32 z)

/-- `z <- p * q`, with the zero-operand case of the overflow flag as R132 lists it; `acc <- wrap32(z)` (R132, R133). -/
def State.multOp (s : State) (p q : Place) : State :=
  let a := signed (s.get p)
  let b := signed (s.get q)
  (s.setOvf (multOverflow a b)).put .a (wrap32 (a * b))

/-- Division and remainder by the divisor `q`: a zero divisor sets `flag.DBZ` and gives 0, any other clears it and gives
`wrap32` of the exact result (R134, R135). -/
def State.divideOp (s : State) (f : Int → Int → Int) (p q : Place) : State :=
  let a := signed (s.get p)
  let b := signed (s.get q)
  if b = 0 then (s.setDbz true).put .a 0 else (s.setDbz false).put .a (wrap32 (f a b))

/-- The quotient rounded toward zero, `trunc_div` of R9. -/
def State.divOp (s : State) (p q : Place) : State :=
  s.divideOp Int.tdiv p q

/-- The remainder with the dividend's sign, `trunc_rem` of R9. -/
def State.modOp (s : State) (p q : Place) : State :=
  s.divideOp Int.tmod p q

/-- `ADD rA, rB`: `acc <- x[a1] + x[a2]` (R137). -/
def execAdd (ra rb : RegNum) (s : State) : Host.Outcome State Fault Refusal :=
  .next (s.addOp (.r ra) (.r rb))

/-- `ADDAR rA`: `acc <- acc + x[a1]` (R138). -/
def execAddar (ra : RegNum) (s : State) : Host.Outcome State Fault Refusal :=
  .next (s.addOp .a (.r ra))

/-- `ADDAJ`: `acc <- acc + jmp` (R139). -/
def execAddaj (s : State) : Host.Outcome State Fault Refusal :=
  .next (s.addOp .a .j)

/-- `SUB rA, rB`: `acc <- x[a1] - x[a2]` (R140). -/
def execSub (ra rb : RegNum) (s : State) : Host.Outcome State Fault Refusal :=
  .next (s.subOp (.r ra) (.r rb))

/-- `SUBAR rA`: `acc <- acc - x[a1]` (R141). -/
def execSubar (ra : RegNum) (s : State) : Host.Outcome State Fault Refusal :=
  .next (s.subOp .a (.r ra))

/-- `SUBAJ`: `acc <- acc - jmp` (R142). -/
def execSubaj (s : State) : Host.Outcome State Fault Refusal :=
  .next (s.subOp .a .j)

/-- `MULT rA, rB`: `acc <- x[a1] * x[a2]` (R143). -/
def execMult (ra rb : RegNum) (s : State) : Host.Outcome State Fault Refusal :=
  .next (s.multOp (.r ra) (.r rb))

/-- `MULTAR rA`: `acc <- acc * x[a1]` (R144). -/
def execMultar (ra : RegNum) (s : State) : Host.Outcome State Fault Refusal :=
  .next (s.multOp .a (.r ra))

/-- `MULTAJ`: `acc <- acc * jmp` (R145). -/
def execMultaj (s : State) : Host.Outcome State Fault Refusal :=
  .next (s.multOp .a .j)

/-- `DIV rA, rB`: `acc <- x[a1] / x[a2]`, truncating (R146). -/
def execDiv (ra rb : RegNum) (s : State) : Host.Outcome State Fault Refusal :=
  .next (s.divOp (.r ra) (.r rb))

/-- `DIVAR rA`: `acc <- acc / x[a1]`, truncating (R147). -/
def execDivar (ra : RegNum) (s : State) : Host.Outcome State Fault Refusal :=
  .next (s.divOp .a (.r ra))

/-- `DIVAJ`: `acc <- acc / jmp`, truncating (R148). -/
def execDivaj (s : State) : Host.Outcome State Fault Refusal :=
  .next (s.divOp .a .j)

/-- `MOD rA, rB`: `acc <- x[a1] rem x[a2]`, truncating (R149). -/
def execMod (ra rb : RegNum) (s : State) : Host.Outcome State Fault Refusal :=
  .next (s.modOp (.r ra) (.r rb))

/-- `MODAR rA`: `acc <- acc rem x[a1]`, truncating (R150). -/
def execModar (ra : RegNum) (s : State) : Host.Outcome State Fault Refusal :=
  .next (s.modOp .a (.r ra))

/-- `MODAJ`: `acc <- acc rem jmp`, truncating (R151). -/
def execModaj (s : State) : Host.Outcome State Fault Refusal :=
  .next (s.modOp .a .j)

end Sys2Proof.Machine
end

