-- ==== Sys2Proof/Machine/BitwiseShift.lean ====
section
/-!
DEFINITION. Bitwise and shift (spec `43_bitwise_shift.md`): one word to `acc`, no flag written (R155).
-/

namespace Sys2Proof.Machine

/-- `acc <- p AND q`, bit by bit (R156). -/
def State.andOp (s : State) (p q : Place) : State :=
  s.put .a (s.get p &&& s.get q)

/-- `acc <- p OR q`, bit by bit (R156). -/
def State.orOp (s : State) (p q : Place) : State :=
  s.put .a (s.get p ||| s.get q)

/-- `acc <- NOT p`, bit by bit (R156). -/
def State.notOp (s : State) (p : Place) : State :=
  s.put .a (~~~(s.get p))

/-- A shift amount: the low five bits of the second operand (R157). -/
def shiftAmount (q : Word) : Nat :=
  (q.extractLsb' 0 5).toNat

/-- `acc <- wrap32(signed(p) * 2^s)` (R157). -/
def State.shlOp (s : State) (p q : Place) : State :=
  s.put .a (wrap32 (signed (s.get p) * 2 ^ shiftAmount (s.get q)))

/-- `acc <- wrap32(floor(signed(p) / 2^s))`, an arithmetic right shift (R157). -/
def State.shrOp (s : State) (p q : Place) : State :=
  s.put .a (wrap32 (Int.fdiv (signed (s.get p)) (2 ^ shiftAmount (s.get q))))

/-- `AND rA, rB`: `acc <- x[a1] AND x[a2]` (R158). -/
def execAnd (ra rb : RegNum) (s : State) : Host.Outcome State Fault Refusal :=
  .next (s.andOp (.r ra) (.r rb))

/-- `ANDAR rA`: `acc <- acc AND x[a1]` (R159). -/
def execAndar (ra : RegNum) (s : State) : Host.Outcome State Fault Refusal :=
  .next (s.andOp .a (.r ra))

/-- `ANDAJ`: `acc <- acc AND jmp` (R160). -/
def execAndaj (s : State) : Host.Outcome State Fault Refusal :=
  .next (s.andOp .a .j)

/-- `OR rA, rB`: `acc <- x[a1] OR x[a2]` (R161). -/
def execOr (ra rb : RegNum) (s : State) : Host.Outcome State Fault Refusal :=
  .next (s.orOp (.r ra) (.r rb))

/-- `ORAR rA`: `acc <- acc OR x[a1]` (R162). -/
def execOrar (ra : RegNum) (s : State) : Host.Outcome State Fault Refusal :=
  .next (s.orOp .a (.r ra))

/-- `ORAJ`: `acc <- acc OR jmp` (R163). -/
def execOraj (s : State) : Host.Outcome State Fault Refusal :=
  .next (s.orOp .a .j)

/-- `NOT rA`: `acc <- NOT x[a1]` (R164). -/
def execNot (ra : RegNum) (s : State) : Host.Outcome State Fault Refusal :=
  .next (s.notOp (.r ra))

/-- `NOTA`: `acc <- NOT acc` (R165). -/
def execNota (s : State) : Host.Outcome State Fault Refusal :=
  .next (s.notOp .a)

/-- `NOTJ`: `acc <- NOT jmp` (R166). -/
def execNotj (s : State) : Host.Outcome State Fault Refusal :=
  .next (s.notOp .j)

/-- `SHL rA, rB`: `acc <- x[a1]` shifted left by `x[a2][4:0]` (R167). -/
def execShl (ra rb : RegNum) (s : State) : Host.Outcome State Fault Refusal :=
  .next (s.shlOp (.r ra) (.r rb))

/-- `SHLAR rA`: `acc <- acc` shifted left by `x[a1][4:0]` (R168). -/
def execShlar (ra : RegNum) (s : State) : Host.Outcome State Fault Refusal :=
  .next (s.shlOp .a (.r ra))

/-- `SHLAJ`: `acc <- acc` shifted left by `jmp[4:0]` (R169). -/
def execShlaj (s : State) : Host.Outcome State Fault Refusal :=
  .next (s.shlOp .a .j)

/-- `SHR rA, rB`: `acc <- x[a1]` shifted right, arithmetic, by `x[a2][4:0]` (R170). -/
def execShr (ra rb : RegNum) (s : State) : Host.Outcome State Fault Refusal :=
  .next (s.shrOp (.r ra) (.r rb))

/-- `SHRAR rA`: `acc <- acc` shifted right, arithmetic, by `x[a1][4:0]` (R171). -/
def execShrar (ra : RegNum) (s : State) : Host.Outcome State Fault Refusal :=
  .next (s.shrOp .a (.r ra))

/-- `SHRAJ`: `acc <- acc` shifted right, arithmetic, by `jmp[4:0]` (R172). -/
def execShraj (s : State) : Host.Outcome State Fault Refusal :=
  .next (s.shrOp .a .j)

end Sys2Proof.Machine
end

