-- ==== Sys2Proof/Machine/Branch.lean ====
section
/-!
DEFINITION. Branches (spec `45_branch.md`): `ic` and nothing else; the target is checked by the engine, not here (R190).
-/

namespace Sys2Proof.Machine

/-- A branch: `ic <- wrap32(a3 - 1)` where its condition holds, nothing where it does not (R190, R191). -/
def State.branchIf (s : State) (taken : Bool) (target : Arg16) : State :=
  { s with ic := if taken then beforeTarget target else s.ic }

/-- `BRAN target`: branch to `a3` always (R192). -/
def execBran (target : Arg16) (s : State) : Host.Outcome State Fault Refusal :=
  .next (s.branchIf true target)

/-- `BRLT target`: branch to `a3` if LT (R193). -/
def execBrlt (target : Arg16) (s : State) : Host.Outcome State Fault Refusal :=
  .next (s.branchIf s.flagLt target)

/-- `BREQ target`: branch to `a3` if EQ (R194). -/
def execBreq (target : Arg16) (s : State) : Host.Outcome State Fault Refusal :=
  .next (s.branchIf s.flagEq target)

/-- `BRGT target`: branch to `a3` if GT (R195). -/
def execBrgt (target : Arg16) (s : State) : Host.Outcome State Fault Refusal :=
  .next (s.branchIf s.flagGt target)

/-- `BRLE target`: branch to `a3` if LT or EQ (R196). -/
def execBrle (target : Arg16) (s : State) : Host.Outcome State Fault Refusal :=
  .next (s.branchIf (s.flagLt || s.flagEq) target)

/-- `BRGE target`: branch to `a3` if GT or EQ (R197). -/
def execBrge (target : Arg16) (s : State) : Host.Outcome State Fault Refusal :=
  .next (s.branchIf (s.flagGt || s.flagEq) target)

/-- `BRGL target`: branch to `a3` if GT or LT, which is not less-or-equal (R198). -/
def execBrgl (target : Arg16) (s : State) : Host.Outcome State Fault Refusal :=
  .next (s.branchIf (s.flagGt || s.flagLt) target)

end Sys2Proof.Machine
end

