-- ==== Sys2Proof/Machine/CallReturn.lean ====
section
/-!
DEFINITION. Call and return (spec `46_call_return.md`): the link register and the call stack (R205 to R208).
-/

namespace Sys2Proof.Machine

/-- `ic <- wrap32(a3 - 1)` after `jmp <- ic`: the end of every call that does not abort (R206). -/
def State.linkAndGo (s : State) (target : Arg16) : State :=
  { s with jmp := s.ic, ic := beforeTarget target }

/-- `CALL`: a zero link register is the outermost call and pushes nothing; any other value is pushed first, and a full stack
aborts before anything is written (R206). -/
def State.callTo (s : State) (target : Arg16) : State :=
  if s.jmp = 0 then s.linkAndGo target
  else
    match s.push s.jmp with
    | some t => t.linkAndGo target
    | none => s.abort .cstackOob

/-- `END`: `ic <- jmp`; on an empty stack `jmp` takes slot 0, which is cleared, else the popped word (R207). -/
def State.returnFromCall (s : State) : State :=
  if h : s.top.val = 0 then
    { s with ic := s.jmp, jmp := s.cstack[0], cstack := s.cstack.set 0 0 }
  else
    let p := s.pop h
    { p.2 with ic := s.jmp, jmp := p.1 }

/-- `CALL target`: save the link, `ic <- a3 - 1` (R206). -/
def execCall (target : Arg16) (s : State) : Host.Outcome State Fault Refusal :=
  .next (s.callTo target)

/-- `END`: `ic <- jmp`, restore the link (R207). -/
def execRet (s : State) : Host.Outcome State Fault Refusal :=
  .next (s.returnFromCall)

end Sys2Proof.Machine
end

