-- ==== Sys2Proof/Machine/Compare.lean ====
section
/-!
DEFINITION. Compare (spec `44_compare.md`): the three comparison flags and nothing else (R180, R186).
-/

namespace Sys2Proof.Machine

/-- `compare(p, q)` of two register operands (R180). -/
def State.compareOp (s : State) (p q : Place) : State :=
  s.compare (s.get p) (s.get q)

/-- `v <- MemRead(a3, 1); compare(p, v)`; a bad address aborts and writes no flag (R184, R185). -/
def State.compareMem (s : State) (p : Place) (addr : Arg16) : State :=
  s.withMemRead (dataAddress addr) fun v => s.compare (s.get p) v

/-- `CMP rA, rB`: `compare(x[a1], x[a2])` (R181). -/
def execCmp (ra rb : RegNum) (s : State) : Host.Outcome State Fault Refusal :=
  .next (s.compareOp (.r ra) (.r rb))

/-- `CMPAR rA`: `compare(acc, x[a1])` (R182). -/
def execCmpar (ra : RegNum) (s : State) : Host.Outcome State Fault Refusal :=
  .next (s.compareOp .a (.r ra))

/-- `CMPAJ`: `compare(acc, jmp)` (R183). -/
def execCmpaj (s : State) : Host.Outcome State Fault Refusal :=
  .next (s.compareOp .a .j)

/-- `CMPRM rA, addr`: `compare(x[a1], mem[a3])` (R184). -/
def execCmprm (ra : RegNum) (addr : Arg16) (s : State) : Host.Outcome State Fault Refusal :=
  .next (s.compareMem (.r ra) addr)

/-- `CMPAM addr`: `compare(acc, mem[a3])` (R185). -/
def execCmpam (addr : Arg16) (s : State) : Host.Outcome State Fault Refusal :=
  .next (s.compareMem .a addr)

end Sys2Proof.Machine
end

