-- ==== Sys2Proof/Machine/ConsoleIo.lean ====
section
/-!
DEFINITION. Console input and output (spec `48_console_io.md`): the core's side of each transaction; the device is `CONOUT`
and the free answers of `ENV` (R220).
-/

namespace Sys2Proof.Machine

/-- A console read: `(ok, w) <- ENV.con_read(fmt)`; on success the destination receives `w`, on failure it keeps its word;
`flag.IOERR` is 1 exactly on failure (R220). The answer is a free value (log 4). -/
def State.consoleRead (s : State) (dst : Place) (fmt : Fmt) : State :=
  let answer := Config.conRead s.sent fmt
  ((s.ask (.conRead fmt)).put dst (if answer.1 then answer.2 else s.get dst)).setIoerr (!answer.1)

/-- `WRW rA, fmt`: append `(a2[0], x[a1])` to `CONOUT` (R221). -/
def execWrw (ra : RegNum) (fmt : Fmt) (s : State) : Host.Outcome State Fault Refusal :=
  .next (s.conOut fmt (s.get (.r ra)))

/-- `WRWA fmt`: append `(a2[0], acc)` to `CONOUT` (R222). -/
def execWrwa (fmt : Fmt) (s : State) : Host.Outcome State Fault Refusal :=
  .next (s.conOut fmt (s.get .a))

/-- `RDW rA, fmt`: `x[a1] <-` console read (R223). -/
def execRdw (ra : RegNum) (fmt : Fmt) (s : State) : Host.Outcome State Fault Refusal :=
  .next (s.consoleRead (.r ra) fmt)

/-- `RDWA fmt`: `acc <-` console read (R224). -/
def execRdwa (fmt : Fmt) (s : State) : Host.Outcome State Fault Refusal :=
  .next (s.consoleRead .a fmt)

end Sys2Proof.Machine
end

