-- ==== Sys2Proof/Machine/DiskIo.lean ====
section
/-!
DEFINITION. Disk (spec `49_disk_io.md`): the handle table, the requests to the device, and the two stream stubs (R230 to R235).
-/

namespace Sys2Proof.Machine

/-- `OPEN`: `ok <- ENV.disk_open(slot)`; on success the slot is open, on failure it stays as it was; `flag.IOERR` is 1 exactly
on failure (R231). The answer is a free value (log 4). -/
def State.openHandle (s : State) (slot : Slot) : State :=
  let ok := Config.diskOpen s.sent slot
  ((s.ask (.diskOpen slot)).writeHandle slot (ok || s.readHandle slot)).setIoerr (!ok)

/-- `CLOSE`: an open slot is closed and the device told; a closed slot is left alone, without a request (R232). -/
def State.closeHandle (s : State) (slot : Slot) : State :=
  if s.readHandle slot then (s.ask (.diskClose slot)).writeHandle slot false else s

/-- A stream stub: report `NOT_IMPLEMENTED(op, ic)` and nothing else (R233, R234). -/
def State.reportNotImplemented (s : State) (op : Opcode) : State :=
  s.report (.notImplemented op s.ic)

/-- `OPEN slot`: open disk slot `a1` (R231). -/
def execOpenSlot (slot : Slot) (s : State) : Host.Outcome State Fault Refusal :=
  .next (s.openHandle slot)

/-- `CLOSE slot`: close disk slot `a1` (R232). -/
def execCloseSlot (slot : Slot) (s : State) : Host.Outcome State Fault Refusal :=
  .next (s.closeHandle slot)

/-- `FREAD`: the streamed read stub, dispatched under opcode `op` (R233). -/
def execFread (op : Opcode) (s : State) : Host.Outcome State Fault Refusal :=
  .next (s.reportNotImplemented op)

/-- `FWRITE`: the streamed write stub, dispatched under opcode `op` (R234). -/
def execFwrite (op : Opcode) (s : State) : Host.Outcome State Fault Refusal :=
  .next (s.reportNotImplemented op)

end Sys2Proof.Machine
end

