-- ==== Sys2Proof/Machine/Halt.lean ====
section
/-!
DEFINITION. Halt (spec `47_halt.md`): the two soft terminations (R217); the engine then skips its step 4 (R97).
-/

namespace Sys2Proof.Machine

/-- `run <- r`. -/
def State.haltAs (s : State) (r : RunState) : State :=
  { s with run := r }

/-- `HALT`: `run <- HALTED_OK` (R215). -/
def execHalt (s : State) : Host.Outcome State Fault Refusal :=
  .next (s.haltAs .haltedOk)

/-- `HALTE`: `run <- HALTED_ERROR` (R216). -/
def execHalte (s : State) : Host.Outcome State Fault Refusal :=
  .next (s.haltAs .haltedError)

end Sys2Proof.Machine
end

