-- ==== Sys2Proof/Machine/MoveLoadStore.lean ====
section
/-!
DEFINITION. Move, load immediate, load and store (spec `41_move_load_store.md`): one word copied, no flag written (R110).
-/

namespace Sys2Proof.Machine

/-- A load: `v <- MemRead(a3, 1)`, then `v` to the destination; a bad address aborts and writes nothing (R121 to R123). -/
def State.load (s : State) (dst : Place) (addr : Arg16) : State :=
  s.withMemRead (dataAddress addr) fun v => s.put dst v

/-- A store: `MemWrite(a3, 1, v)` with the source's word (R124 to R126). -/
def State.store (s : State) (src : Place) (addr : Arg16) : State :=
  s.memWrite (dataAddress addr) (s.get src)

/-- `MOV rA, rB`: `x[a1] <- x[a2]` (R111). -/
def execMov (ra rb : RegNum) (s : State) : Host.Outcome State Fault Refusal :=
  .next (s.put (.r ra) (s.get (.r rb)))

/-- `MOVRA rA`: `x[a1] <- acc` (R112). -/
def execMovra (ra : RegNum) (s : State) : Host.Outcome State Fault Refusal :=
  .next (s.put (.r ra) (s.get .a))

/-- `MOVAR rA`: `acc <- x[a1]` (R113). -/
def execMovar (ra : RegNum) (s : State) : Host.Outcome State Fault Refusal :=
  .next (s.put .a (s.get (.r ra)))

/-- `MOVRJ rA`: `x[a1] <- jmp` (R114). -/
def execMovrj (ra : RegNum) (s : State) : Host.Outcome State Fault Refusal :=
  .next (s.put (.r ra) (s.get .j))

/-- `MOVJR rA`: `jmp <- x[a1]` (R115). -/
def execMovjr (ra : RegNum) (s : State) : Host.Outcome State Fault Refusal :=
  .next (s.put .j (s.get (.r ra)))

/-- `MOVAJ`: `acc <- jmp` (R116). -/
def execMovaj (s : State) : Host.Outcome State Fault Refusal :=
  .next (s.put .a (s.get .j))

/-- `MOVJA`: `jmp <- acc` (R117). -/
def execMovja (s : State) : Host.Outcome State Fault Refusal :=
  .next (s.put .j (s.get .a))

/-- `LDI rA, imm`: `x[a1] <- zext_16(a3)` (R118). -/
def execLdi (rd : RegNum) (imm : Arg16) (s : State) : Host.Outcome State Fault Refusal :=
  .next (s.put (.r rd) (immediate imm))

/-- `LDIA imm`: `acc <- zext_16(a3)` (R119). -/
def execLdia (imm : Arg16) (s : State) : Host.Outcome State Fault Refusal :=
  .next (s.put .a (immediate imm))

/-- `LDIJ imm`: `jmp <- zext_16(a3)` (R120). -/
def execLdij (imm : Arg16) (s : State) : Host.Outcome State Fault Refusal :=
  .next (s.put .j (immediate imm))

/-- `LD rA, addr`: `x[a1] <- mem[a3]` (R121). -/
def execLd (ra : RegNum) (addr : Arg16) (s : State) : Host.Outcome State Fault Refusal :=
  .next (s.load (.r ra) addr)

/-- `LDA addr`: `acc <- mem[a3]` (R122). -/
def execLda (addr : Arg16) (s : State) : Host.Outcome State Fault Refusal :=
  .next (s.load .a addr)

/-- `LDJ addr`: `jmp <- mem[a3]` (R123). -/
def execLdj (addr : Arg16) (s : State) : Host.Outcome State Fault Refusal :=
  .next (s.load .j addr)

/-- `ST rA, addr`: `mem[a3] <- x[a1]` (R124). -/
def execSt (ra : RegNum) (addr : Arg16) (s : State) : Host.Outcome State Fault Refusal :=
  .next (s.store (.r ra) addr)

/-- `STA addr`: `mem[a3] <- acc` (R125). -/
def execSta (addr : Arg16) (s : State) : Host.Outcome State Fault Refusal :=
  .next (s.store .a addr)

/-- `STJ addr`: `mem[a3] <- jmp` (R126). -/
def execStj (addr : Arg16) (s : State) : Host.Outcome State Fault Refusal :=
  .next (s.store .j addr)

end Sys2Proof.Machine
end

