-- ==== Sys2Proof/Machine/Dispatch.lean ====
section
/-!
DEFINITION. The handler of each instruction (spec `40_dispatch_engine.md` R94): one arm per constructor, one direct call of its
meaning. `exec` is step 3 of the cycle (R92); the engine's step 4 is `advance`.
-/

namespace Sys2Proof.Machine

def exec (i : Instr) (s : State) : Host.Outcome State Fault Refusal :=
  match i with
  | .halt => Sys2Proof.Machine.execHalt s
  | .halte => Sys2Proof.Machine.execHalte s
  | .mov ra rb => Sys2Proof.Machine.execMov ra rb s
  | .movra ra => Sys2Proof.Machine.execMovra ra s
  | .movar ra => Sys2Proof.Machine.execMovar ra s
  | .movrj ra => Sys2Proof.Machine.execMovrj ra s
  | .movjr ra => Sys2Proof.Machine.execMovjr ra s
  | .movaj => Sys2Proof.Machine.execMovaj s
  | .movja => Sys2Proof.Machine.execMovja s
  | .ldi rd imm => Sys2Proof.Machine.execLdi rd imm s
  | .ldia imm => Sys2Proof.Machine.execLdia imm s
  | .ldij imm => Sys2Proof.Machine.execLdij imm s
  | .ld ra addr => Sys2Proof.Machine.execLd ra addr s
  | .lda addr => Sys2Proof.Machine.execLda addr s
  | .ldj addr => Sys2Proof.Machine.execLdj addr s
  | .st ra addr => Sys2Proof.Machine.execSt ra addr s
  | .sta addr => Sys2Proof.Machine.execSta addr s
  | .stj addr => Sys2Proof.Machine.execStj addr s
  | .add ra rb => Sys2Proof.Machine.execAdd ra rb s
  | .addar ra => Sys2Proof.Machine.execAddar ra s
  | .addaj => Sys2Proof.Machine.execAddaj s
  | .sub ra rb => Sys2Proof.Machine.execSub ra rb s
  | .subar ra => Sys2Proof.Machine.execSubar ra s
  | .subaj => Sys2Proof.Machine.execSubaj s
  | .mult ra rb => Sys2Proof.Machine.execMult ra rb s
  | .multar ra => Sys2Proof.Machine.execMultar ra s
  | .multaj => Sys2Proof.Machine.execMultaj s
  | .div ra rb => Sys2Proof.Machine.execDiv ra rb s
  | .divar ra => Sys2Proof.Machine.execDivar ra s
  | .divaj => Sys2Proof.Machine.execDivaj s
  | .mod ra rb => Sys2Proof.Machine.execMod ra rb s
  | .modar ra => Sys2Proof.Machine.execModar ra s
  | .modaj => Sys2Proof.Machine.execModaj s
  | .and ra rb => Sys2Proof.Machine.execAnd ra rb s
  | .andar ra => Sys2Proof.Machine.execAndar ra s
  | .andaj => Sys2Proof.Machine.execAndaj s
  | .or ra rb => Sys2Proof.Machine.execOr ra rb s
  | .orar ra => Sys2Proof.Machine.execOrar ra s
  | .oraj => Sys2Proof.Machine.execOraj s
  | .not ra => Sys2Proof.Machine.execNot ra s
  | .nota => Sys2Proof.Machine.execNota s
  | .notj => Sys2Proof.Machine.execNotj s
  | .shl ra rb => Sys2Proof.Machine.execShl ra rb s
  | .shlar ra => Sys2Proof.Machine.execShlar ra s
  | .shlaj => Sys2Proof.Machine.execShlaj s
  | .shr ra rb => Sys2Proof.Machine.execShr ra rb s
  | .shrar ra => Sys2Proof.Machine.execShrar ra s
  | .shraj => Sys2Proof.Machine.execShraj s
  | .cmp ra rb => Sys2Proof.Machine.execCmp ra rb s
  | .cmpar ra => Sys2Proof.Machine.execCmpar ra s
  | .cmpaj => Sys2Proof.Machine.execCmpaj s
  | .cmprm ra addr => Sys2Proof.Machine.execCmprm ra addr s
  | .cmpam addr => Sys2Proof.Machine.execCmpam addr s
  | .bran target => Sys2Proof.Machine.execBran target s
  | .brlt target => Sys2Proof.Machine.execBrlt target s
  | .breq target => Sys2Proof.Machine.execBreq target s
  | .brgt target => Sys2Proof.Machine.execBrgt target s
  | .brle target => Sys2Proof.Machine.execBrle target s
  | .brge target => Sys2Proof.Machine.execBrge target s
  | .brgl target => Sys2Proof.Machine.execBrgl target s
  | .call target => Sys2Proof.Machine.execCall target s
  | .ret => Sys2Proof.Machine.execRet s
  | .wrw ra fmt => Sys2Proof.Machine.execWrw ra fmt s
  | .wrwa fmt => Sys2Proof.Machine.execWrwa fmt s
  | .rdw ra fmt => Sys2Proof.Machine.execRdw ra fmt s
  | .rdwa fmt => Sys2Proof.Machine.execRdwa fmt s
  | .openSlot slot => Sys2Proof.Machine.execOpenSlot slot s
  | .closeSlot slot => Sys2Proof.Machine.execCloseSlot slot s
  | .fread op => Sys2Proof.Machine.execFread op s
  | .fwrite op => Sys2Proof.Machine.execFwrite op s

end Sys2Proof.Machine
end

