-- ==== Sys2Proof/Machine/Engine.lean ====
section
/-!
DEFINITION. The dispatch engine (spec `40_dispatch_engine.md`): fetch (R93), dispatch (R94), the unknown opcode (R95), the
increment with its bounds test (R96, R97), and the four-step cycle (R92).
-/

namespace Sys2Proof.Machine

/-- Step 1, the fetch of `mem[unsigned(ic)]` (R66, R93); none where no such word exists, which no run reaches (R98). -/
def State.fetch (s : State) : Option Word :=
  s.memWord (unsigned s.ic)

/-- Step 4: while the core is running, `ic <- wrap32(ic + 1)` and then the bounds test; nothing once step 3 has left `RUNNING`
(R92, R96, R97). -/
def State.advance (s : State) : State :=
  if s.run = .running then
    let next := s.ic + 1
    if unsigned next ≥ s.cfg.memSize then { s with ic := next }.abort .icOob else { s with ic := next }
  else s

/-- Step 2 with an absent entry: `diag(UNKNOWN_OPCODE(op, ic))` (R95). -/
def State.reportUnknown (s : State) (e : DecodeError) : State :=
  match e with
  | .unassignedOpcode op => s.report (.unknownOpcode op s.ic)

/-- Step 4 after what a handler answered; a fault or a refusal is passed on. -/
def thenAdvance (o : Host.Outcome State Fault Refusal) : Host.Outcome State Fault Refusal :=
  match o with
  | .next t => .next t.advance
  | .fault f => .fault f
  | .refused r => .refused r

/-- Steps 2 to 4 of a cycle, for a fetched word (R92). -/
def State.runWord (s : State) (w : Word) : Host.Outcome State Fault Refusal :=
  match decode s.cfg.dispatch w with
  | .ok i => thenAdvance (exec i s)
  | .error e => .next (s.reportUnknown e).advance

/-- One cycle of a running core (R92). -/
def State.cycle (s : State) : Host.Outcome State Fault Refusal :=
  match s.fetch with
  | some w => s.runWord w
  | none => .fault .fetchOutsideMemory

/-- The state with a word placed where the next fetch reads. -/
def State.placeNext (s : State) (w : Word) : State :=
  { s with mem := s.mem.write (unsigned s.ic) w }

end Sys2Proof.Machine
end

