-- ==== Sys2Proof/Machine/Step.lean ====
section
/-!
DEFINITION. One step of the machine: a cycle while the core is running (spec `40_dispatch_engine.md` R92), nothing in a terminal
state (R99; D28 allows the identity, log 5).
-/

namespace Sys2Proof.Machine

/-- One step. -/
def step (s : State) : Host.Outcome State Fault Refusal :=
  match s.run with
  | .running => s.cycle
  | .haltedOk => .next s
  | .haltedError => .next s
  | .abortedOob => .next s

/-- The state with an instruction of `nbits` bits `w` stored at the word the next step fetches (log 3). -/
def State.withFetchWord (s : State) (nbits w : Nat) : State :=
  s.placeNext (tableWord nbits w)

end Sys2Proof.Machine
end

