-- ==== Sys2Proof/Machine/Boot.lean ====
section
/-!
DEFINITION. Reset with a program image (spec `70_reset_and_hazards.md` R260, R262) and the loader's duties before it (R263): the
image file's length and byte order (R54), an image longer than memory, parameters out of bounds (R6).
-/

namespace Sys2Proof.Machine

/-- Word `i` of the image at address `base + i`, on top of a memory (R262). -/
def Memory.loadAt (m : Memory) (base : Nat) (image : List Word) : Memory :=
  match image with
  | [] => m
  | w :: rest => Memory.loadAt (m.write base w) (base + 1) rest

/-- Reset (R260): every element at its value of R47, memory loaded from the image, 0 beyond it. None where the parameters are
out of bounds (R6, U22) or the image is longer than memory (R263, U21): the core is then never started. -/
def boot (cfg : Config) (image : List Word) : Option State :=
  if cfg.wf ∧ image.length ≤ cfg.memSize then
    some { State.reset with cfg := cfg, mem := Memory.loadAt [] 0 image }
  else none

/-- The word of four bytes of the image file, in file order (R54, R263). -/
def wordOfBytes (e : Endian) (b0 b1 b2 b3 : BitVec 8) : Word :=
  match e with
  | .little => b3 ++ b2 ++ b1 ++ b0
  | .big => b0 ++ b1 ++ b2 ++ b3

/-- The words of an image file; none where its length is no multiple of the word size, a corrupted program (R263). -/
def imageOfBytes (e : Endian) (bytes : List (BitVec 8)) : Option (List Word) :=
  match bytes with
  | [] => some []
  | b0 :: b1 :: b2 :: b3 :: rest => (imageOfBytes e rest).map fun ws => wordOfBytes e b0 b1 b2 b3 :: ws
  | _ => none

/-- Reset from the bytes of an image file (R262, R263). -/
def bootFile (cfg : Config) (bytes : List (BitVec 8)) : Option State :=
  (imageOfBytes cfg.imageEndian bytes).bind (boot cfg)

end Sys2Proof.Machine
end

