-- ==== Sys2Proof/Machine/Status.lean ====
section
/-!
DEFINITION. What the environment can read of the core at any time (spec `10_state.md` R35, R36) and the outcome of a run
(`40_dispatch_engine.md` R101, `70_reset_and_hazards.md` R276). Functions of the state; reading them changes nothing.
-/

namespace Sys2Proof.Machine

/-- The exit code, a function of `run` (R35): 0, 2, `ABORT_EXIT_CODE`; a running core has none. DESIGN CHOICE (log 13): it is an
integer of no stated width, shown whole; the spec gives the number neither a sign nor a width. -/
def State.exitCode (s : State) : Option Int :=
  match s.run with
  | .running => none
  | .haltedOk => some 0
  | .haltedError => some 2
  | .abortedOob => some s.cfg.abortExitCode

/-- The status outputs (R36). -/
structure StatusOutputs where
  run : RunState
  cause : AbortCause
  exitCode : Option Int
  lt : Bool
  eq : Bool
  gt : Bool
  ovf : Bool
  dbz : Bool
  ioerr : Bool
  deriving DecidableEq, Repr

/-- What the status outputs show of a state (R36). -/
def State.status (s : State) : StatusOutputs :=
  { run := s.run, cause := s.cause, exitCode := s.exitCode, lt := s.flagLt, eq := s.flagEq, gt := s.flagGt,
    ovf := s.flagOvf, dbz := s.flagDbz, ioerr := s.flagIoerr }

/-- The outcome of a run: (`run`, exit code, `cause`) once the core has stopped (R101, R276); a running core has none. -/
def State.outcome (s : State) : Option (RunState × Int × AbortCause) :=
  s.exitCode.map fun code => (s.run, code, s.cause)

end Sys2Proof.Machine
end

