-- ==== Sys2Proof/Safety.lean ====
section
/-!
DEFINITION. The terms claims are stated in: the parts of the state and what it means that only some of them change, the
invariant of the machine, runs, and safe states.
-/

namespace Sys2Proof.Machine

/-- A part of the state, each as small as an instruction can write it: one register, one flag, one call-stack slot, one word of
memory. -/
inductive StatePart where
  | reg (n : RegNum)
  | acc
  | jmp
  | ic
  | lt
  | eq
  | gt
  | ovf
  | dbz
  | ioerr
  | run
  | cause
  | slot (k : Fin 100)
  | top
  | handle (n : Slot)
  | word (a : Nat)
  | diag
  | conout
  | env
  | cfg
  deriving DecidableEq, Repr

/-- Two states agree on a part; a word of memory through the model's read of one word. -/
def StatePart.Same (p : StatePart) (s t : State) : Prop :=
  match p with
  | .reg n => t.readReg n = s.readReg n
  | .acc => t.acc = s.acc
  | .jmp => t.jmp = s.jmp
  | .ic => t.ic = s.ic
  | .lt => t.flagLt = s.flagLt
  | .eq => t.flagEq = s.flagEq
  | .gt => t.flagGt = s.flagGt
  | .ovf => t.flagOvf = s.flagOvf
  | .dbz => t.flagDbz = s.flagDbz
  | .ioerr => t.flagIoerr = s.flagIoerr
  | .run => t.run = s.run
  | .cause => t.cause = s.cause
  | .slot k => t.cstack[k.val] = s.cstack[k.val]
  | .top => t.top = s.top
  | .handle n => t.readHandle n = s.readHandle n
  | .word a => t.mem.read a = s.mem.read a
  | .diag => t.diag = s.diag
  | .conout => t.conout = s.conout
  | .env => t.envLog = s.envLog
  | .cfg => t.cfg = s.cfg

/-- The frame: from `s` to `t` every part but those listed is unchanged. -/
def OnlyChanges (ps : List StatePart) (s t : State) : Prop :=
  ∀ p, p ∉ ps → p.Same s t

/-- The invariant of the machine: the parameters are in bounds (R6); memory is in canonical form and lists no address that does
not exist (R50); a running core fetches inside memory (R98); at most one comparison flag is set (R27, C2); there is an abort
cause exactly in `ABORTED_OOB` (R34). -/
abbrev State.Inv (s : State) : Prop :=
  s.cfg.wf ∧ s.mem.wf ∧ (∀ p ∈ s.mem, p.1 < s.cfg.memSize) ∧
    (s.run = .running → unsigned s.ic < s.cfg.memSize) ∧
    (s.flagLt.toNat + s.flagEq.toNat + s.flagGt.toNat ≤ 1) ∧
    (s.cause ≠ .none ↔ s.run = .abortedOob)

/-- `t` is reached from `s` by steps that answer a next state. -/
inductive Reaches (s : State) : State → Prop where
  | refl : Reaches s s
  | tail {t u : State} : Reaches s t → step t = .next u → Reaches s u

/-- A state a run can start from: one that reset with some parameters and some image gives (R260). -/
def Booted (s : State) : Prop :=
  ∃ cfg image, boot cfg image = some s

/-- A safe state: whatever is reached from it, the next step answers a next state. -/
def State.Safe (s : State) : Prop :=
  ∀ t, Reaches s t → ∃ u, step t = .next u

end Sys2Proof.Machine
end

