-- ==== Sys2Proof/WellFormed.lean ====
section
/-!
DEFINITION. Which instruction terms stand for words: every operand has exactly its field's range by its type (spec
`30_encoding.md` R70, R74), so what is left to check is that the dispatch table names the operation (R79) and that a stream
stub carries an opcode that selects it (R233, R234).
-/

namespace Sys2Proof

/-- The table names the instruction's operation under some opcode (R78, R79). -/
def Instr.assigned (i : Instr) (d : Dispatch) : Bool :=
  d.any fun row => row.2 == i.op && d.lookup row.1 == some i.op

/-- The opcode a stream stub carries selects that stub (R233, R234); true of every other instruction. -/
def Instr.carriesItsOpcode (i : Instr) (d : Dispatch) : Bool :=
  match i.carriedOpcode with
  | some o => d.lookup o == some i.op
  | none => true

/-- A well-formed instruction of a dispatch table: `encode` has a word for it. -/
def Instr.wellFormed (i : Instr) (d : Dispatch) : Bool :=
  i.assigned d && i.carriesItsOpcode d

end Sys2Proof
end

