-- ==== Sys2Proof/Certificates/Slice0/Obligations.lean ====
section
/-!
DEFINITION. The statements about the model, each a proposition with the rule of the spec it formalises. Where a clause rests on
a decision of the spec (`92_eei_decisions.md` D<n>), on an inference the spec marks as derived, or on a choice of the model, the
docstring says so. The free answers of the environment are never assumed: a statement about them holds for every answer.
-/

namespace Sys2Proof.Claims

open Sys2Proof.Machine

/-! ## The terms the statements share -/

/-- The instruction completes: it answers a next state with a property, and only the listed parts of the state changed. -/
def Does (i : Instr) (s : State) (ps : List StatePart) (Q : State → Prop) : Prop :=
  ∃ t, exec i s = .next t ∧ Q t ∧ OnlyChanges ps s t

/-- Under the default table every word with the opcode is the instruction its fields give, whatever the fields the instruction
ignores hold. -/
def Encoded (o : Opcode) (i : RegNum → BitVec 4 → Arg16 → Instr) : Prop :=
  ∀ a1 a2 a3, decode Dispatch.default (o ++ a1 ++ a2 ++ a3) = .ok (i a1 a2 a3)

/-- The core is running and its next word is the instruction. -/
def Fetches (s : State) (i : Instr) : Prop :=
  s.run = .running ∧ ∃ w, s.fetch = some w ∧ decode s.cfg.dispatch w = .ok i

/-- The step of a running core continues at an address: inside memory it is still running there; outside memory it aborts with
cause `IC_OOB` and keeps the address in `ic`. Besides `ic` (and `run`, `cause` on the abort) only the listed parts changed. -/
def GoesTo (s : State) (a : Nat) (ps : List StatePart) (Q : State → Prop) : Prop :=
  ∃ u, step s = .next u ∧ unsigned u.ic = a ∧ Q u ∧
    (a < s.cfg.memSize → u.run = .running ∧ OnlyChanges (.ic :: ps) s u) ∧
    (s.cfg.memSize ≤ a → u.run = .abortedOob ∧ u.cause = .icOob ∧ OnlyChanges (.ic :: .run :: .cause :: ps) s u)

/-- The address after `ic`, modulo `2^32`. -/
def nextAddress (s : State) : Nat :=
  unsigned (s.ic + 1)

/-- A data access to an address that does not exist: the abort `DATA_OOB` and nothing else. -/
def AbortsData (i : Instr) (s : State) : Prop :=
  Does i s [.run, .cause] fun t => t.run = .abortedOob ∧ t.cause = .dataOob

/-- The value `wrap32(z)` has as a signed word: `((z + 2^31) mod 2^32) - 2^31` (R9). -/
def wrapped (z : Int) : Int :=
  (z + 2147483648) % 4294967296 - 2147483648

/-- An exact integer a signed word cannot hold. -/
def Overflows (z : Int) : Prop :=
  z > 2147483647 ∨ z < -2147483648

/-- The two states agree on every part but those listed. -/
def AgreeBut (ps : List StatePart) (s t : State) : Prop :=
  OnlyChanges ps s t

/-- The encodings of R215, R216 (R74, R78). -/
def haltEncodings : Prop :=
  Encoded 0x01#8 (fun _ _ _ => .halt) ∧ Encoded 0x02#8 (fun _ _ _ => .halte)

/-- The encodings of R111 to R126 (R74, R78). -/
def moveEncodings : Prop :=
  Encoded 0x10#8 (fun a1 a2 _ => .mov a1 a2) ∧ Encoded 0x11#8 (fun a1 _ _ => .movra a1) ∧
    Encoded 0x12#8 (fun a1 _ _ => .movar a1) ∧ Encoded 0x13#8 (fun a1 _ _ => .movrj a1) ∧
    Encoded 0x14#8 (fun a1 _ _ => .movjr a1) ∧ Encoded 0x15#8 (fun _ _ _ => .movaj) ∧
    Encoded 0x16#8 (fun _ _ _ => .movja) ∧ Encoded 0x18#8 (fun a1 _ a3 => .ldi a1 a3) ∧
    Encoded 0x19#8 (fun _ _ a3 => .ldia a3) ∧ Encoded 0x1A#8 (fun _ _ a3 => .ldij a3) ∧
    Encoded 0x20#8 (fun a1 _ a3 => .ld a1 a3) ∧ Encoded 0x21#8 (fun _ _ a3 => .lda a3) ∧
    Encoded 0x22#8 (fun _ _ a3 => .ldj a3) ∧ Encoded 0x28#8 (fun a1 _ a3 => .st a1 a3) ∧
    Encoded 0x29#8 (fun _ _ a3 => .sta a3) ∧ Encoded 0x2A#8 (fun _ _ a3 => .stj a3)

/-- The encodings of R137 to R151 (R74, R78). -/
def arithmeticEncodings : Prop :=
  Encoded 0x30#8 (fun a1 a2 _ => .add a1 a2) ∧ Encoded 0x31#8 (fun a1 _ _ => .addar a1) ∧
    Encoded 0x32#8 (fun _ _ _ => .addaj) ∧ Encoded 0x34#8 (fun a1 a2 _ => .sub a1 a2) ∧
    Encoded 0x35#8 (fun a1 _ _ => .subar a1) ∧ Encoded 0x36#8 (fun _ _ _ => .subaj) ∧
    Encoded 0x38#8 (fun a1 a2 _ => .mult a1 a2) ∧ Encoded 0x39#8 (fun a1 _ _ => .multar a1) ∧
    Encoded 0x3A#8 (fun _ _ _ => .multaj) ∧ Encoded 0x3C#8 (fun a1 a2 _ => .div a1 a2) ∧
    Encoded 0x3D#8 (fun a1 _ _ => .divar a1) ∧ Encoded 0x3E#8 (fun _ _ _ => .divaj) ∧
    Encoded 0x40#8 (fun a1 a2 _ => .mod a1 a2) ∧ Encoded 0x41#8 (fun a1 _ _ => .modar a1) ∧
    Encoded 0x42#8 (fun _ _ _ => .modaj)

/-- The encodings of R158 to R172 (R74, R78). -/
def bitwiseEncodings : Prop :=
  Encoded 0x50#8 (fun a1 a2 _ => .and a1 a2) ∧ Encoded 0x51#8 (fun a1 _ _ => .andar a1) ∧
    Encoded 0x52#8 (fun _ _ _ => .andaj) ∧ Encoded 0x54#8 (fun a1 a2 _ => .or a1 a2) ∧
    Encoded 0x55#8 (fun a1 _ _ => .orar a1) ∧ Encoded 0x56#8 (fun _ _ _ => .oraj) ∧
    Encoded 0x58#8 (fun a1 _ _ => .not a1) ∧ Encoded 0x59#8 (fun _ _ _ => .nota) ∧
    Encoded 0x5A#8 (fun _ _ _ => .notj) ∧ Encoded 0x5C#8 (fun a1 a2 _ => .shl a1 a2) ∧
    Encoded 0x5D#8 (fun a1 _ _ => .shlar a1) ∧ Encoded 0x5E#8 (fun _ _ _ => .shlaj) ∧
    Encoded 0x60#8 (fun a1 a2 _ => .shr a1 a2) ∧ Encoded 0x61#8 (fun a1 _ _ => .shrar a1) ∧
    Encoded 0x62#8 (fun _ _ _ => .shraj)

/-- The encodings of R181 to R185 (R74, R78). -/
def compareEncodings : Prop :=
  Encoded 0x70#8 (fun a1 a2 _ => .cmp a1 a2) ∧ Encoded 0x71#8 (fun a1 _ _ => .cmpar a1) ∧
    Encoded 0x72#8 (fun _ _ _ => .cmpaj) ∧ Encoded 0x73#8 (fun a1 _ a3 => .cmprm a1 a3) ∧
    Encoded 0x74#8 (fun _ _ a3 => .cmpam a3)

/-- The encodings of R192 to R198 (R74, R78). -/
def branchEncodings : Prop :=
  Encoded 0x80#8 (fun _ _ a3 => .bran a3) ∧ Encoded 0x81#8 (fun _ _ a3 => .brlt a3) ∧
    Encoded 0x82#8 (fun _ _ a3 => .breq a3) ∧ Encoded 0x83#8 (fun _ _ a3 => .brgt a3) ∧
    Encoded 0x84#8 (fun _ _ a3 => .brle a3) ∧ Encoded 0x85#8 (fun _ _ a3 => .brge a3) ∧
    Encoded 0x86#8 (fun _ _ a3 => .brgl a3)

/-- The encodings of R206, R207 (R74, R78). -/
def callEncodings : Prop :=
  Encoded 0x90#8 (fun _ _ a3 => .call a3) ∧ Encoded 0x91#8 (fun _ _ _ => .ret)

/-- The encodings of R221 to R224 (R74, R78). -/
def consoleEncodings : Prop :=
  Encoded 0xA0#8 (fun a1 a2 _ => .wrw a1 (BitVec.ofBool (a2.getLsbD 0))) ∧
    Encoded 0xA1#8 (fun _ a2 _ => .wrwa (BitVec.ofBool (a2.getLsbD 0))) ∧
    Encoded 0xA2#8 (fun a1 a2 _ => .rdw a1 (BitVec.ofBool (a2.getLsbD 0))) ∧
    Encoded 0xA3#8 (fun _ a2 _ => .rdwa (BitVec.ofBool (a2.getLsbD 0)))

/-- The encodings of R231 to R234 (R74, R78). -/
def diskEncodings : Prop :=
  Encoded 0xB0#8 (fun a1 _ _ => .openSlot a1) ∧ Encoded 0xB1#8 (fun a1 _ _ => .closeSlot a1) ∧
    Encoded 0xB2#8 (fun _ _ _ => .fread 0xB2#8) ∧ Encoded 0xB3#8 (fun _ _ _ => .fwrite 0xB3#8)

/-- The cell an instruction names, if it names one (R53). -/
def namedCell : Instr → Option Arg16
  | .ld _ a => some a
  | .lda a => some a
  | .ldj a => some a
  | .st _ a => some a
  | .sta a => some a
  | .stj a => some a
  | .cmprm _ a => some a
  | .cmpam a => some a
  | _ => none

/-- The three instructions that store to memory (R53). -/
def storedCell : Instr → Option Arg16
  | .st _ a => some a
  | .sta a => some a
  | .stj a => some a
  | _ => none

/-- The five compares (R29). -/
def isCompare (i : Instr) : Bool :=
  [Op.cmp, .cmpar, .cmpaj, .cmprm, .cmpam].contains i.op

/-- The six conditional branches (R191). -/
def isConditionalBranch (i : Instr) : Bool :=
  [Op.brlt, .breq, .brgt, .brle, .brge, .brgl].contains i.op

/-- The instructions that transfer control (R25). -/
def isTransfer (i : Instr) : Bool :=
  [Op.bran, .brlt, .breq, .brgt, .brle, .brge, .brgl, .call, .ret].contains i.op

/-- The instructions that write `flag.OVF` (R29). -/
def writesOverflow (i : Instr) : Bool :=
  [Op.add, .addar, .addaj, .sub, .subar, .subaj, .mult, .multar, .multaj].contains i.op

/-- The instructions that write `flag.DBZ` (R29). -/
def writesDivideByZero (i : Instr) : Bool :=
  [Op.div, .divar, .divaj, .mod, .modar, .modaj].contains i.op

/-- The instructions that write `flag.IOERR` (R29). -/
def writesIoError (i : Instr) : Bool :=
  [Op.openSlot, .rdw, .rdwa].contains i.op

/-- The general register an instruction may write (R21). -/
def writtenRegister : Instr → Option RegNum
  | .mov rd _ => some rd
  | .movra rd => some rd
  | .movrj rd => some rd
  | .ldi rd _ => some rd
  | .ld rd _ => some rd
  | .rdw rd _ => some rd
  | _ => none

/-- The first and second operand of a two-operand ALU instruction in its three forms `RR`, `AR`, `AJ` (R74, R130): whatever is
said of an operation is said of all three. -/
def EachForm (rr : RegNum → RegNum → Instr) (ar : RegNum → Instr) (aj : Instr) (s : State)
    (P : Instr → Word → Word → Prop) : Prop :=
  (∀ ra rb, P (rr ra rb) (s.readReg ra) (s.readReg rb)) ∧ (∀ ra, P (ar ra) s.acc (s.readReg ra)) ∧ P aj s.acc s.jmp

/-- The quotient `q` and the remainder `r` of a truncating division (R134). -/
def Truncates (a b q r : Int) : Prop :=
  a = b * q + r ∧ |r| < |b| ∧ (r = 0 ∨ (0 < r ∧ 0 < a) ∨ (r < 0 ∧ a < 0))

/-- The branch writes at most `ic`, which it leaves so that the engine's increment lands on the target exactly where the
condition holds; the step then continues at the target, or at the next word. -/
def BranchesWhen (b : Instr) (target : Arg16) (taken : Bool) (s : State) : Prop :=
  (Does b s [.ic] fun t =>
    (taken = true → unsigned (t.ic + 1) = target.toNat) ∧ (taken = false → t.ic = s.ic)) ∧
  (Fetches s b → GoesTo s (if taken then target.toNat else nextAddress s) [] fun _ => True)

/-- Calls made one inside the other, `sites` the addresses they stand at: each runs at its site, on the state the one before
it left. -/
def nestCalls (target : Arg16) (s : State) : List Word → Option State
  | [] => some s
  | site :: rest =>
    match exec (.call target) { s with ic := site } with
    | .next t => nestCalls target t rest
    | .fault _ => none
    | .refused _ => none

end Sys2Proof.Claims

open Sys2Proof Sys2Proof.Machine Sys2Proof.Claims

/-! ## The codec and the encodings -/

/-- R71: the four fields of every word are its bits 31:24, 23:20, 19:16 and 15:0, as unsigned integers. -/
def Obligations.DecodeTakesTheFourFields : Prop :=
  ∀ w : Word,
    (fieldsOf w).op.toNat = unsigned w / 2 ^ 24 ∧ (fieldsOf w).a1.toNat = unsigned w / 2 ^ 20 % 16 ∧
      (fieldsOf w).a2.toNat = unsigned w / 2 ^ 16 % 16 ∧ (fieldsOf w).a3.toNat = unsigned w % 65536

/-- R72: `encode` masks each argument to the width of its field and rejects none, and for arguments in range `decode` gives
them back. -/
def Obligations.EncodeMasksItsArguments : Prop :=
  (∀ o a b c : Int,
    (unsigned (encodeInts o a b c) : Int) =
      (o % 256) * 2 ^ 24 + (a % 16) * 2 ^ 20 + (b % 16) * 2 ^ 16 + c % 65536) ∧
  ∀ f : Fields, fieldsOf (encodeInts f.op.toNat f.a1.toNat f.a2.toNat f.a3.toNat) = f

/-- R73: `patch_arg3` writes the low 16 bits, the new value modulo 65536, and leaves the opcode, `arg1` and `arg2`. -/
def Obligations.PatchArg3LeavesTheOtherFields : Prop :=
  ∀ (w : Word) (n : Int),
    (fieldsOf (patchArg3 w n)).op = (fieldsOf w).op ∧ (fieldsOf (patchArg3 w n)).a1 = (fieldsOf w).a1 ∧
      (fieldsOf (patchArg3 w n)).a2 = (fieldsOf w).a2 ∧ ((fieldsOf (patchArg3 w n)).a3.toNat : Int) = n % 65536

/-- The default opcode map (the table of R78, which the spec marks as its decisions D1, D2, D4): the opcode of each of the 70
operations, which field each operand is taken from, and that a field the form ignores has no effect. -/
def Obligations.DefaultOpcodeTable : Prop :=
  haltEncodings ∧ moveEncodings ∧ arithmeticEncodings ∧ bitwiseEncodings ∧ compareEncodings ∧ branchEncodings ∧
    callEncodings ∧ consoleEncodings ∧ diskEncodings

/-- The unassigned opcodes of the default table (R79, whose numbering the spec marks as decision D2): a word is rejected, by the
name of its opcode, exactly where its opcode lies outside the blocks of R78. -/
def Obligations.UnassignedOpcodesRejectedByName : Prop :=
  ∀ w : Word, ∀ n, n = (fieldsOf w).op.toNat →
    (decode Dispatch.default w = .error (.unassignedOpcode (fieldsOf w).op) ↔
      n = 0 ∨ (3 ≤ n ∧ n ≤ 0x0F) ∨ n = 0x17 ∨ (0x1B ≤ n ∧ n ≤ 0x1F) ∨ (0x23 ≤ n ∧ n ≤ 0x27) ∨
        (0x2B ≤ n ∧ n ≤ 0x2F) ∨ n = 0x33 ∨ n = 0x37 ∨ n = 0x3B ∨ n = 0x3F ∨ (0x43 ≤ n ∧ n ≤ 0x4F) ∨ n = 0x53 ∨
        n = 0x57 ∨ n = 0x5B ∨ n = 0x5F ∨ (0x63 ≤ n ∧ n ≤ 0x6F) ∨ (0x75 ≤ n ∧ n ≤ 0x7F) ∨ (0x87 ≤ n ∧ n ≤ 0x8F) ∨
        (0x92 ≤ n ∧ n ≤ 0x9F) ∨ (0xA4 ≤ n ∧ n ≤ 0xAF) ∨ 0xB4 ≤ n)

/-- Decode and encode agree: under every dispatch table, every well-formed instruction has a word and decodes from it (R70 to R78).
That a table is a list of rows is log 9, that a stream stub carries its opcode log 8. -/
def Obligations.EncodedInstructionsDecode : Prop :=
  ∀ (d : Dispatch) (i : Instr), i.wellFormed d = true →
    ∃ w, encode d i = some w ∧ decode d w = .ok i

/-- The other direction, under the default table (R77, decision D4): an instruction that was decoded is well-formed, and its
encoding is the decoded word with the ignored fields cleared: it decodes to that instruction, so every operand is kept; it has
the same opcode; and it has no bit that the word does not have. -/
def Obligations.DecodedWordsReencode : Prop :=
  ∀ (w : Word) (i : Instr), decode Dispatch.default w = .ok i →
    i.wellFormed Dispatch.default = true ∧
      ∃ v, encode Dispatch.default i = some v ∧ decode Dispatch.default v = .ok i ∧
        (fieldsOf v).op = (fieldsOf w).op ∧ v &&& w = v

/-- Words written out bit by bit from the encodings of the spec decode to the instructions they stand for. -/
def Obligations.WrittenOutWordsDecode : Prop :=
  decode Dispatch.default 0b00000001000000000000000000000000#32 = .ok .halt ∧
  decode Dispatch.default 0b00010000010100110000000000000000#32 = .ok (.mov 5#4 3#4) ∧
  decode Dispatch.default 0b00100000000100000000000000010100#32 = .ok (.ld 1#4 20#16) ∧
  decode Dispatch.default 0b00110000000000010000000000000000#32 = .ok (.add 0#4 1#4) ∧
  decode Dispatch.default 0b01100001000100000000000000000000#32 = .ok (.shrar 1#4) ∧
  decode Dispatch.default 0b01110011001100000000000000101000#32 = .ok (.cmprm 3#4 40#16) ∧
  decode Dispatch.default 0b10000110000000000000000000000010#32 = .ok (.brgl 2#16) ∧
  decode Dispatch.default 0b10010001000000000000000000000000#32 = .ok .ret ∧
  decode Dispatch.default 0b10100000001100010000000000000000#32 = .ok (.wrw 3#4 1#1) ∧
  decode Dispatch.default 0b10110000001100000000000000000000#32 = .ok (.openSlot 3#4)

/-! ## The engine -/

/-- R92, a step runs the decoded instruction: from a running core whose word decodes to an instruction, the step is what `exec`
of that instruction leaves, with the engine's step 4 after it (nothing once the core has stopped; else `ic + 1` modulo `2^32`,
and the abort `IC_OOB` where that is outside memory). A word with an absent entry takes the place of the handler by its
diagnostic. -/
def Obligations.StepRunsTheDecodedInstruction : Prop :=
  ∀ (s : State) (w : Word), s.run = .running → s.fetch = some w →
    (s.mem.read (unsigned s.ic) = w ∧ unsigned s.ic < s.cfg.memSize) ∧
    ∃ t, ((∃ i, decode s.cfg.dispatch w = .ok i ∧ exec i s = .next t) ∨
          (∃ o, decode s.cfg.dispatch w = .error (.unassignedOpcode o) ∧
            t = { s with diag := s.diag ++ [.unknownOpcode o s.ic] })) ∧
      (t.run ≠ .running → step s = .next t) ∧
      (t.run = .running → unsigned (t.ic + 1) < t.cfg.memSize → step s = .next { t with ic := t.ic + 1 }) ∧
      (t.run = .running → t.cfg.memSize ≤ unsigned (t.ic + 1) →
        step s = .next { t with ic := t.ic + 1, run := .abortedOob, cause := .icOob })

/-- The unknown opcode (R95; its payload is the spec's decision D20): one event, no other change but the advance of `ic`; the
core goes on at the next word. -/
def Obligations.UnknownOpcodeIsReportedNoOp : Prop :=
  ∀ (s : State) (w : Word), s.run = .running → s.fetch = some w →
    s.cfg.dispatch.lookup (fieldsOf w).op = none →
      GoesTo s (nextAddress s) [.diag] fun u => u.diag = s.diag ++ [.unknownOpcode (fieldsOf w).op s.ic]

/-- No step outside `RUNNING` (R99; that a step there is the identity is decision D28 and log 5): any number of steps leaves the
whole state as it is. -/
def Obligations.TerminalStatesAreFinal : Prop :=
  ∀ (s : State) (k : Nat), s.run ≠ .running → Host.Core.run Sys2Proof.core k s = .next s

/-- A store is seen by the next fetch (R64, which the spec derives): after `ST` to the address that follows it, the next word
fetched is the stored one. -/
def Obligations.StoredWordIsFetchedNext : Prop :=
  ∀ (s : State) (ra : RegNum) (addr : Arg16), Fetches s (.st ra addr) → addr.toNat = nextAddress s →
    addr.toNat < s.cfg.memSize →
      ∃ u, step s = .next u ∧ u.run = .running ∧ u.fetch = some (s.readReg ra)

/-- How `ic` advances (R25, with the conditions of R191 and R193 to R198, of which those of `BRLT`, `BREQ`, `BRGT` and `BRLE` are
the spec's decision D16, followed by log 7): only `BRAN`, the conditional branches, `CALL` and `END` write `ic`; a step that
leaves the core running is followed by `ic + 1` (the increment that aborts is in `StepRunsTheDecodedInstruction`); the control
transfers write the target minus one, a conditional branch exactly where it is taken; and no instruction but `CALL`, which takes
it into `jmp`, takes `ic` into a register. The last clause compares two executions; for `RDW` and `RDWA` it rests on the model's
choice of log 4, that equal histories get equal answers from the environment. -/
def Obligations.OnlyTransfersWriteTheCounter : Prop :=
  (∀ (i : Instr) (s t : State), exec i s = .next t → isTransfer i = false → t.ic = s.ic) ∧
  (∀ (i : Instr) (s t u : State), Fetches s i → exec i s = .next t → step s = .next u → u.run = .running →
    u.ic = t.ic + 1) ∧
  (∀ (a : Arg16) (s t : State), exec (.bran a) s = .next t → unsigned (t.ic + 1) = a.toNat) ∧
  (∀ (a : Arg16) (s t : State), exec (.call a) s = .next t → s.jmp = 0 ∨ s.top.val < 100 →
    unsigned (t.ic + 1) = a.toNat ∧ t.jmp = s.ic) ∧
  (∀ (a : Arg16) (i : Instr) (taken : Bool) (s t : State),
    (i, taken) ∈ [(.brlt a, s.flagLt), (.breq a, s.flagEq), (.brgt a, s.flagGt), (.brle a, s.flagLt || s.flagEq),
      (.brge a, s.flagGt || s.flagEq), (.brgl a, s.flagGt || s.flagLt)] →
    exec i s = .next t → if taken then unsigned (t.ic + 1) = a.toNat else t.ic = s.ic) ∧
  (∀ s t : State, exec .ret s = .next t → t.ic = s.jmp) ∧
  (∀ (i : Instr) (s t t' : State) (c : Word), (∀ a, i ≠ .call a) → exec i s = .next t →
    exec i { s with ic := c } = .next t' → t'.x = t.x ∧ t'.acc = t.acc ∧ t'.jmp = t.jmp)

/-! ## Move, load immediate, load, store -/

/-- Move, load immediate, load and store (R110 for the family, R111 to R126 for each): each of the sixteen instructions copies
one word from its source to its destination and changes nothing else; the six that name a cell abort with `DATA_OOB` and write
nothing where the cell does not exist. The roster and the opcode numbers are the spec's decisions D1 and D2 (R78), the ignored
fields D4 (R77), the zero-extension of an immediate D5 (R75, R118 to R120), the abort D7; log 7. Memory is read and written by
the model's own access to one word. -/
def Obligations.MovesCopyOneWord : Prop :=
  moveEncodings ∧ ∀ (s : State) (ra rb : RegNum) (v : Arg16),
    (Does (.mov ra rb) s [.reg ra] fun t => t.readReg ra = s.readReg rb) ∧
    (Does (.movra ra) s [.reg ra] fun t => t.readReg ra = s.acc) ∧
    (Does (.movar ra) s [.acc] fun t => t.acc = s.readReg ra) ∧
    (Does (.movrj ra) s [.reg ra] fun t => t.readReg ra = s.jmp) ∧
    (Does (.movjr ra) s [.jmp] fun t => t.jmp = s.readReg ra) ∧
    (Does .movaj s [.acc] fun t => t.acc = s.jmp) ∧
    (Does .movja s [.jmp] fun t => t.jmp = s.acc) ∧
    (Does (.ldi ra v) s [.reg ra] fun t => unsigned (t.readReg ra) = v.toNat) ∧
    (Does (.ldia v) s [.acc] fun t => unsigned t.acc = v.toNat) ∧
    (Does (.ldij v) s [.jmp] fun t => unsigned t.jmp = v.toNat) ∧
    (v.toNat < s.cfg.memSize →
      (Does (.ld ra v) s [.reg ra] fun t => t.readReg ra = s.mem.read v.toNat) ∧
      (Does (.lda v) s [.acc] fun t => t.acc = s.mem.read v.toNat) ∧
      (Does (.ldj v) s [.jmp] fun t => t.jmp = s.mem.read v.toNat) ∧
      (Does (.st ra v) s [.word (dataAddress v)] fun t => t.mem.read (dataAddress v) = s.readReg ra) ∧
      (Does (.sta v) s [.word (dataAddress v)] fun t => t.mem.read (dataAddress v) = s.acc) ∧
      (Does (.stj v) s [.word (dataAddress v)] fun t => t.mem.read (dataAddress v) = s.jmp)) ∧
    (s.cfg.memSize ≤ v.toNat →
      AbortsData (.ld ra v) s ∧ AbortsData (.lda v) s ∧ AbortsData (.ldj v) s ∧ AbortsData (.st ra v) s ∧
        AbortsData (.sta v) s ∧ AbortsData (.stj v) s)

/-- A store and a load of the same address (R57, which the spec derives): the load that follows returns the stored word. -/
def Obligations.LoadAfterStoreReturnsTheWord : Prop :=
  ∀ (s t u : State) (ra rd : RegNum) (a b : Arg16), exec (.st ra a) s = .next t → exec (.ld rd b) t = .next u →
    a.toNat < s.cfg.memSize → b.toNat < s.cfg.memSize →
      u.readReg rd = if a = b then s.readReg ra else s.mem.read b.toNat

/-! ## Arithmetic -/

/-- R131: add and sub write `flag.OVF` on every execution, 1 exactly where the exact sum or difference is outside the signed
32-bit range. -/
def Obligations.AddSubOverflowIsExact : Prop :=
  ∀ s : State,
    (EachForm .add .addar .addaj s fun i p q =>
      Does i s [.acc, .ovf] fun t => t.flagOvf = true ↔ Overflows (signed p + signed q)) ∧
    (EachForm .sub .subar .subaj s fun i p q =>
      Does i s [.acc, .ovf] fun t => t.flagOvf = true ↔ Overflows (signed p - signed q))

/-- R133: add, sub and mult put the exact result modulo `2^32` into `acc`, overflow or not, and overflow happens exactly where
the signed value of `acc` is not the exact result. -/
def Obligations.ArithmeticWrapsAround : Prop :=
  ∀ s : State,
    (EachForm .add .addar .addaj s fun i p q =>
      Does i s [.acc, .ovf] fun t => signed t.acc = wrapped (signed p + signed q) ∧
        (t.flagOvf = true ↔ signed t.acc ≠ signed p + signed q)) ∧
    (EachForm .sub .subar .subaj s fun i p q =>
      Does i s [.acc, .ovf] fun t => signed t.acc = wrapped (signed p - signed q) ∧
        (t.flagOvf = true ↔ signed t.acc ≠ signed p - signed q)) ∧
    (EachForm .mult .multar .multaj s fun i p q =>
      Does i s [.acc, .ovf] fun t => signed t.acc = wrapped (signed p * signed q) ∧
        (t.flagOvf = true ↔ signed t.acc ≠ signed p * signed q))

/-- The overflow of a multiply is exact for every operand pair (R132, which the spec marks as its decision D12); a zero operand
gives 0 and clears the flag. -/
def Obligations.MultiplyOverflowIsExact : Prop :=
  ∀ s : State, EachForm .mult .multar .multaj s fun i p q =>
    Does i s [.acc, .ovf] fun t =>
      (p = 0 ∨ q = 0 → t.acc = 0 ∧ t.flagOvf = false) ∧
        (t.flagOvf = true ↔ Overflows (signed p * signed q))

/-- R134: a zero divisor sets `flag.DBZ` and gives 0; any other divisor clears the flag, and `acc` is the truncating quotient or
remainder narrowed to a word (the sign of the remainder follows the dividend). -/
def Obligations.DivisionTruncates : Prop :=
  ∀ s : State,
    (EachForm .div .divar .divaj s fun i p q =>
      Does i s [.acc, .dbz] fun t => (q = 0 → t.flagDbz = true ∧ t.acc = 0) ∧
        (q ≠ 0 → t.flagDbz = false ∧ ∃ z r, Truncates (signed p) (signed q) z r ∧ signed t.acc = wrapped z)) ∧
    (EachForm .mod .modar .modaj s fun i p q =>
      Does i s [.acc, .dbz] fun t => (q = 0 → t.flagDbz = true ∧ t.acc = 0) ∧
        (q ≠ 0 → t.flagDbz = false ∧ ∃ z r, Truncates (signed p) (signed q) z r ∧ signed t.acc = wrapped r))

/-- `MIN` divided by -1 (R135, which the spec marks as its decision D13): the quotient wraps to `MIN`, the remainder is 0,
neither `DBZ` nor a changed `OVF`; for every other pair with a non-zero divisor the quotient fits, and every remainder fits. -/
def Obligations.OnlyMinByMinusOneWraps : Prop :=
  ∀ s : State,
    (EachForm .div .divar .divaj s fun i p q =>
      Does i s [.acc, .dbz] fun t =>
        (signed p = -2147483648 ∧ signed q = -1 → signed t.acc = -2147483648 ∧ t.flagDbz = false) ∧
        (q ≠ 0 → ¬(signed p = -2147483648 ∧ signed q = -1) →
          ∃ r, Truncates (signed p) (signed q) (signed t.acc) r)) ∧
    (EachForm .mod .modar .modaj s fun i p q =>
      Does i s [.acc, .dbz] fun t =>
        (signed p = -2147483648 ∧ signed q = -1 → t.acc = 0 ∧ t.flagDbz = false) ∧
        (q ≠ 0 → ∃ z, Truncates (signed p) (signed q) z (signed t.acc)))

/-! ## Bitwise and shift -/

/-- R155: each of the fifteen instructions reads only its operands, writes one word to `acc` and changes nothing else: no flag,
no general register, not `jmp`, not `ic`, no memory; none raises an exception. Two states that agree on the operands get the
same word in `acc`. -/
def Obligations.BitwiseWritesOnlyTheAccumulator : Prop :=
  (∀ (s s' : State) (ra rb : RegNum), s.readReg ra = s'.readReg ra → s.readReg rb = s'.readReg rb →
    ∀ i ∈ [Instr.and ra rb, .or ra rb, .shl ra rb, .shr ra rb],
      ∃ t, exec i s' = .next t ∧ Does i s [.acc] fun u => u.acc = t.acc) ∧
  (∀ (s s' : State) (ra : RegNum), s.acc = s'.acc → s.readReg ra = s'.readReg ra →
    ∀ i ∈ [Instr.andar ra, .orar ra, .shlar ra, .shrar ra],
      ∃ t, exec i s' = .next t ∧ Does i s [.acc] fun u => u.acc = t.acc) ∧
  (∀ s s' : State, s.acc = s'.acc → s.jmp = s'.jmp →
    ∀ i ∈ [Instr.andaj, .oraj, .shlaj, .shraj],
      ∃ t, exec i s' = .next t ∧ Does i s [.acc] fun u => u.acc = t.acc) ∧
  (∀ (s s' : State) (ra : RegNum), s.readReg ra = s'.readReg ra →
    ∃ t, exec (.not ra) s' = .next t ∧ Does (.not ra) s [.acc] fun u => u.acc = t.acc) ∧
  (∀ s s' : State, s.acc = s'.acc →
    ∃ t, exec .nota s' = .next t ∧ Does .nota s [.acc] fun u => u.acc = t.acc) ∧
  (∀ s s' : State, s.jmp = s'.jmp →
    ∃ t, exec .notj s' = .next t ∧ Does .notj s [.acc] fun u => u.acc = t.acc)

/-- And, or and not act on every bit position on its own, and `NOT p = -p - 1` (R156, which the spec marks as general
knowledge, G2). -/
def Obligations.BitwiseActsBitByBit : Prop :=
  ∀ s : State,
    (EachForm .and .andar .andaj s fun i p q =>
      Does i s [.acc] fun t => ∀ k, t.acc.getLsbD k = (p.getLsbD k && q.getLsbD k)) ∧
    (EachForm .or .orar .oraj s fun i p q =>
      Does i s [.acc] fun t => ∀ k, t.acc.getLsbD k = (p.getLsbD k || q.getLsbD k)) ∧
    (∀ ra, Does (.not ra) s [.acc] fun t =>
      (∀ k < 32, t.acc.getLsbD k = !(s.readReg ra).getLsbD k) ∧ signed t.acc = -signed (s.readReg ra) - 1) ∧
    (Does .nota s [.acc] fun t =>
      (∀ k < 32, t.acc.getLsbD k = !s.acc.getLsbD k) ∧ signed t.acc = -signed s.acc - 1) ∧
    (Does .notj s [.acc] fun t =>
      (∀ k < 32, t.acc.getLsbD k = !s.jmp.getLsbD k) ∧ signed t.acc = -signed s.jmp - 1)

/-- Shifts (R157, which the spec marks as its decision D14): the amount is the second operand modulo 32; a left shift fills with
zeros, a right shift with copies of bit 31. -/
def Obligations.ShiftsMoveBits : Prop :=
  ∀ s : State,
    (EachForm .shl .shlar .shlaj s fun i p q =>
      Does i s [.acc] fun t => ∀ k < 32,
        t.acc.getLsbD k = (decide (unsigned q % 32 ≤ k) && p.getLsbD (k - unsigned q % 32))) ∧
    (EachForm .shr .shrar .shraj s fun i p q =>
      Does i s [.acc] fun t => ∀ k < 32, t.acc.getLsbD k = p.getLsbD (min (k + unsigned q % 32) 31))

/-! ## Compare -/

/-- The compare function and its five instructions (R180, R186; that the relation is first to second is the spec's decision
D15): the three flags from the signed comparison, exactly one of them 1, and nothing else changes; a cell that does not exist
aborts and leaves the flags (decision D7). -/
def Obligations.CompareSetsExactlyOneFlag : Prop :=
  ∀ (s : State) (a : Arg16) (ra : RegNum),
    (EachForm .cmp .cmpar .cmpaj s fun i p q =>
      Does i s [.lt, .eq, .gt] fun t => (t.flagLt = true ↔ signed p < signed q) ∧ (t.flagEq = true ↔ p = q) ∧
        (t.flagGt = true ↔ signed q < signed p) ∧ t.flagLt.toNat + t.flagEq.toNat + t.flagGt.toNat = 1) ∧
    (∀ i p, (i = .cmprm ra a ∧ p = s.readReg ra) ∨ (i = .cmpam a ∧ p = s.acc) →
      (a.toNat < s.cfg.memSize →
        Does i s [.lt, .eq, .gt] fun t => (t.flagLt = true ↔ signed p < signed (s.mem.read a.toNat)) ∧
          (t.flagEq = true ↔ p = s.mem.read a.toNat) ∧ (t.flagGt = true ↔ signed (s.mem.read a.toNat) < signed p) ∧
          t.flagLt.toNat + t.flagEq.toNat + t.flagGt.toNat = 1) ∧
      (s.cfg.memSize ≤ a.toNat → AbortsData i s))

/-- The comparison flags (R27, C2): they are 0 after reset and stay 0 until the first compare runs; they are written only by the
five compares, which make exactly one of them 1, and read only by the six conditional branches: whatever the flags hold, every
other instruction leaves the same rest of the state. The last clause compares two executions; for `RDW`, `RDWA` and `OPEN` it
rests on the model's choice of log 4, that equal histories get equal answers from the environment. That a run may go on in a
terminal state is log 5. -/
def Obligations.ComparisonFlagsOwnership : Prop :=
  (∀ (s t : State) (n : Nat), Booted s → Host.Core.run Sys2Proof.core n s = .next t →
    (∀ k < n, ∀ (u : State) (i : Instr), Host.Core.run Sys2Proof.core k s = .next u → Fetches u i → isCompare i = false) →
      t.flagLt = false ∧ t.flagEq = false ∧ t.flagGt = false) ∧
  (∀ (i : Instr) (s t : State), exec i s = .next t → isCompare i = false →
    t.flagLt = s.flagLt ∧ t.flagEq = s.flagEq ∧ t.flagGt = s.flagGt) ∧
  (∀ (i : Instr) (s t : State), exec i s = .next t → isCompare i = true → s.run = .running → t.run = .running →
    t.flagLt.toNat + t.flagEq.toNat + t.flagGt.toNat = 1) ∧
  (∀ (i : Instr) (s t t' : State) (l e g : Bool), isConditionalBranch i = false → exec i s = .next t →
    exec i { s with flagLt := l, flagEq := e, flagGt := g } = .next t' → AgreeBut [.lt, .eq, .gt] t t')

/-- The error flags (R28, R29, R30, the table marked by the spec as derived, with decisions D17 and D18 for `IOERR`): only the
instructions listed write each of them, and no instruction reads one: whatever they hold, every step leaves the same rest of the
state. The last clause compares two steps; for `RDW`, `RDWA` and `OPEN` it rests on the model's choice of log 4, that equal
histories get equal answers from the environment, and in a terminal state on log 5. -/
def Obligations.ErrorFlagsAreAdvisory : Prop :=
  (∀ (i : Instr) (s t : State), exec i s = .next t →
    (writesOverflow i = false → t.flagOvf = s.flagOvf) ∧ (writesDivideByZero i = false → t.flagDbz = s.flagDbz) ∧
      (writesIoError i = false → t.flagIoerr = s.flagIoerr)) ∧
  (∀ (s u u' : State) (o d e : Bool), step s = .next u →
    step { s with flagOvf := o, flagDbz := d, flagIoerr := e } = .next u' → AgreeBut [.ovf, .dbz, .ioerr] u u')

/-! ## Branches -/

/-- R192: `BRAN`, opcode 0x80, always continues at its target, with `IC_OOB` where the target is outside memory. -/
def Obligations.BranchAlways : Prop :=
  Encoded 0x80#8 (fun _ _ a3 => .bran a3) ∧
    ∀ (s : State) (a : Arg16), BranchesWhen (.bran a) a true s

/-- R197: `BRGE`, opcode 0x85, is taken exactly where greater or equal is set. -/
def Obligations.BranchGreaterOrEqual : Prop :=
  Encoded 0x85#8 (fun _ _ a3 => .brge a3) ∧
    ∀ (s : State) (a : Arg16), BranchesWhen (.brge a) a (s.flagGt || s.flagEq) s

/-- R198: `BRGL`, opcode 0x86, is taken exactly where greater or less is set; after any compare this is "not equal". -/
def Obligations.BranchGreaterOrLess : Prop :=
  Encoded 0x86#8 (fun _ _ a3 => .brgl a3) ∧
    (∀ (s : State) (a : Arg16), BranchesWhen (.brgl a) a (s.flagGt || s.flagLt) s) ∧
    ∀ (c : Instr) (s t : State) (a : Arg16), isCompare c = true → s.run = .running → exec c s = .next t →
      t.run = .running → BranchesWhen (.brgl a) a (!t.flagEq) t

/-- The four conditions the source does not name (R193 to R196, which the spec marks as its decision D16). -/
def Obligations.BranchOnTheOtherConditions : Prop :=
  ∀ (s : State) (a : Arg16),
    BranchesWhen (.brlt a) a s.flagLt s ∧ BranchesWhen (.breq a) a s.flagEq s ∧ BranchesWhen (.brgt a) a s.flagGt s ∧
      BranchesWhen (.brle a) a (s.flagLt || s.flagEq) s

/-! ## Call and return -/

/-- `CALL`, opcode 0x90 (R206, and R208 for its push; that a push writes `cstack[top]` and then increments `top` is the spec's
decision D9, the abort on a full stack its decision D10, both followed by log 7). With `jmp = 0` nothing is pushed; else `jmp` is
pushed at `cstack[top]`; then `jmp` is the address of the `CALL` and the next word is at `a3`, with `IC_OOB` where that is outside
memory, the updates standing. On a full stack it aborts with `CSTACK_OOB` and changes nothing else. -/
def Obligations.CallLinksAndPushes : Prop :=
  Encoded 0x90#8 (fun _ _ a3 => .call a3) ∧
  ∀ (s : State) (a : Arg16),
    (s.jmp = 0 →
      (Does (.call a) s [.jmp, .ic] fun t => t.jmp = s.ic ∧ unsigned (t.ic + 1) = a.toNat) ∧
      (Fetches s (.call a) → GoesTo s a.toNat [.jmp] fun u => u.jmp = s.ic)) ∧
    (∀ h : s.top.val < 100, s.jmp ≠ 0 →
      (Does (.call a) s [.jmp, .ic, .top, .slot ⟨s.top.val, h⟩] fun t =>
        t.jmp = s.ic ∧ unsigned (t.ic + 1) = a.toNat ∧ t.cstack[s.top.val] = s.jmp ∧ t.top.val = s.top.val + 1) ∧
      (Fetches s (.call a) → GoesTo s a.toNat [.jmp, .top, .slot ⟨s.top.val, h⟩] fun u =>
        u.jmp = s.ic ∧ u.cstack[s.top.val] = s.jmp ∧ u.top.val = s.top.val + 1)) ∧
    (s.jmp ≠ 0 → s.top.val = 100 →
      (Does (.call a) s [.run, .cause] fun t => t.run = .abortedOob ∧ t.cause = .cstackOob) ∧
      (Fetches s (.call a) → ∃ u, step s = .next u ∧ u.run = .abortedOob ∧ u.cause = .cstackOob ∧
        OnlyChanges [.run, .cause] s u))

/-- `END`, opcode 0x91 (R207, and R208 for its pop; that a pop decrements `top`, then reads `cstack[top]`, and clears nothing is
the spec's decision D9, followed by log 7), sets `ic` to `jmp`, so the next word is at `jmp + 1`, with `IC_OOB` where that is
outside memory; `jmp` is then slot 0, cleared, where `top` is 0, and else the popped word, its slot left. -/
def Obligations.EndReturnsAndRestoresTheLink : Prop :=
  Encoded 0x91#8 (fun _ _ _ => .ret) ∧
  ∀ s : State,
    (s.top.val = 0 →
      (Does .ret s [.ic, .jmp, .slot 0] fun t => t.ic = s.jmp ∧ t.jmp = s.cstack[0] ∧ t.cstack[0] = 0) ∧
      (Fetches s .ret → GoesTo s (unsigned (s.jmp + 1)) [.jmp, .slot 0] fun u =>
        u.jmp = s.cstack[0] ∧ u.cstack[0] = 0)) ∧
    (∀ k : Fin 100, s.top.val = k.val + 1 →
      (Does .ret s [.ic, .jmp, .top] fun t => t.ic = s.jmp ∧ t.jmp = s.cstack[k.val] ∧ t.top.val = k.val) ∧
      (Fetches s .ret → GoesTo s (unsigned (s.jmp + 1)) [.jmp, .top] fun u =>
        u.jmp = s.cstack[k.val] ∧ u.top.val = k.val))

/-- A call and its matching return (R205, R208, R210; the slot order is the spec's decision D9): if the routine leaves `jmp`, the
stack and the counter as the `CALL` left them, its `END` continues after the `CALL`, and the counter is back at its value before
the call; `jmp` is back too, but for an outermost call, where it takes slot 0. -/
def Obligations.ReturnUndoesItsCall : Prop :=
  ∀ (s t r u : State) (a : Arg16), (s.jmp = 0 → s.top.val = 0) → (s.jmp ≠ 0 → s.top.val < 100) →
    exec (.call a) s = .next t → r.jmp = t.jmp → r.cstack = t.cstack → r.top = t.top → exec .ret r = .next u →
      u.ic = s.ic ∧ u.top = s.top ∧ (s.jmp ≠ 0 → u.jmp = s.jmp) ∧ (s.jmp = 0 → u.jmp = s.cstack[0])

/-- Nesting capacity (R209, derived by the spec; what `top` counts is decision D9, the abort on a full stack decision D10): from
`jmp = 0` and an empty stack, nested calls from non-zero addresses keep the core running exactly while there are at most 101 of
them; the 102nd aborts. -/
def Obligations.NestingCapacity : Prop :=
  ∀ (s : State) (a : Arg16) (sites : List Word), s.run = .running → s.jmp = 0 → s.top.val = 0 →
    (∀ w ∈ sites, w ≠ 0) →
      (sites.length ≤ 101 → ∃ t, nestCalls a s sites = some t ∧ t.run = .running ∧ t.top.val = sites.length - 1) ∧
      (sites.length = 102 →
        ∃ t, nestCalls a s sites = some t ∧ t.run = .abortedOob ∧ t.cause = .cstackOob ∧ t.top.val = 100)

/-- Who touches the call stack (R39; the slot order, and that a pop clears no slot, are the spec's decision D9, followed by log 7):
only `CALL` writes `cstack[top]` and increments `top`; only `END` reads `cstack`, decrements `top` and clears `cstack[0]`; no other
instruction reads or writes either: with any other stack contents and counter it leaves the same rest of the state. The last two
clauses compare two executions; for `RDW`, `RDWA` and `OPEN` they rest on the model's choice of log 4, that equal histories get
equal answers from the environment. -/
def Obligations.CallStackOwnership : Prop :=
  (∀ (i : Instr) (s t : State), exec i s = .next t → (∀ a, i ≠ .call a) → i ≠ .ret →
    t.cstack = s.cstack ∧ t.top = s.top) ∧
  (∀ (a : Arg16) (s t : State), exec (.call a) s = .next t →
    (t.cstack = s.cstack ∧ t.top = s.top) ∨
      (t.top.val = s.top.val + 1 ∧ ∀ k : Fin 100, k.val ≠ s.top.val → t.cstack[k.val] = s.cstack[k.val])) ∧
  (∀ s t : State, exec .ret s = .next t →
    (t.top.val + 1 = s.top.val ∧ t.cstack = s.cstack) ∨
      (t.top = s.top ∧ t.cstack[0] = 0 ∧ ∀ k : Fin 100, k.val ≠ 0 → t.cstack[k.val] = s.cstack[k.val])) ∧
  (∀ (i : Instr) (s t t' : State) (c : Vector Word 100), i ≠ .ret → exec i s = .next t →
    exec i { s with cstack := c } = .next t' → ∀ p : StatePart, (∀ k, p ≠ .slot k) → p.Same t t') ∧
  (∀ (i : Instr) (s t t' : State) (c : Vector Word 100) (n : Fin 101), (∀ a, i ≠ .call a) → i ≠ .ret →
    exec i s = .next t → exec i { s with cstack := c, top := n } = .next t' →
      ∀ p : StatePart, (∀ k, p ≠ .slot k) → p ≠ .top → p.Same t t')

/-! ## Halt and the other terminal events -/

/-- The halts (R215, R216; that `ic` stays is the spec's decision D8): the run state and the exit code, nothing else changes, and
the step that runs one leaves `ic` where it is, in the last word of memory too. -/
def Obligations.HaltStopsAtItsOwnAddress : Prop :=
  ∀ s : State,
    (Does .halt s [.run] fun t => t.run = .haltedOk ∧ t.exitCode = some 0) ∧
    (Does .halte s [.run] fun t => t.run = .haltedError ∧ t.exitCode = some 2) ∧
    (Fetches s .halt → ∃ u, step s = .next u ∧ u.run = .haltedOk ∧ OnlyChanges [.run] s u) ∧
    (Fetches s .halte → ∃ u, step s = .next u ∧ u.run = .haltedError ∧ OnlyChanges [.run] s u)

/-- R217: the two halt opcodes are the only soft termination paths, with the exit codes 0 and 2: a step ends a run in
`HALTED_OK` exactly where the word is `HALT`, in `HALTED_ERROR` exactly where it is `HALTE`; a run that ends without them is in
`ABORTED_OOB`; a zero word does not halt. -/
def Obligations.OnlyHaltsTerminateSoftly : Prop :=
  (∀ s u : State, s.run = .running → step s = .next u →
    (u.run = .haltedOk ↔ Fetches s .halt) ∧ (u.run = .haltedError ↔ Fetches s .halte) ∧
      (u.run = .haltedOk → u.exitCode = some 0) ∧ (u.run = .haltedError → u.exitCode = some 2)) ∧
  (∀ s u : State, s.run = .running → Reaches s u →
    (∀ t, Reaches s t → ¬Fetches t .halt ∧ ¬Fetches t .halte) → u.run = .running ∨ u.run = .abortedOob) ∧
  decode Dispatch.default 0 = .error (.unassignedOpcode 0)

/-- Which event stops the core (R90, R240 to R243, R248; the causes `DATA_OOB` and `CSTACK_OOB` are the spec's decisions D7 and
D10): from a running core, a step ends in each cause exactly under its condition, and the handler's events come before
`IC_OOB`. -/
def Obligations.AbortsExactlyWhenOutOfBounds : Prop :=
  ∀ s u : State, s.run = .running → s.cause = .none → step s = .next u →
    (u.run = .abortedOob ↔ u.cause ≠ .none) ∧
    (u.cause = .dataOob ↔ ∃ i a, Fetches s i ∧ namedCell i = some a ∧ s.cfg.memSize ≤ a.toNat) ∧
    (u.cause = .cstackOob ↔ (∃ a, Fetches s (.call a)) ∧ s.jmp ≠ 0 ∧ s.top.val = 100) ∧
    (u.cause = .icOob ↔ u.cause ≠ .dataOob ∧ u.cause ≠ .cstackOob ∧ u.run ≠ .haltedOk ∧ u.run ≠ .haltedError ∧
      s.cfg.memSize ≤ unsigned u.ic)

/-- Outcomes are precise (R249, which the spec derives; the two events are its decisions D7 and D10): a step that ends in `DATA_OOB`
or `CSTACK_OOB` changes nothing but `run` and `cause`. -/
def Obligations.HandlerAbortsArePrecise : Prop :=
  ∀ s u : State, s.run = .running → s.cause = .none → step s = .next u →
    u.cause = .dataOob ∨ u.cause = .cstackOob → OnlyChanges [.run, .cause] s u

/-- What the environment reads of the core (R35, R36, R101; that these are outputs is the spec's decision D24, the cause D25, the
abort code and its bounds D21, and that the code is an integer without other bounds, shown whole, is the model's choice, log 13).
The exit code of each run state, none while running; the status outputs show the run state, the cause, the exit code and the six
flags; the outcome is the triple of a core that has stopped; a step that ends in `ABORTED_OOB` has the exit code `ABORT_EXIT_CODE`
of the core it started from; and for parameters in bounds the exit code tells the four run states apart. -/
def Obligations.ExitCodesDistinguishOutcomes : Prop :=
  (∀ s : State,
    (s.run = .running → s.exitCode = none ∧ s.outcome = none) ∧
    (s.run = .haltedOk → s.exitCode = some 0 ∧ s.outcome = some (.haltedOk, 0, s.cause)) ∧
    (s.run = .haltedError → s.exitCode = some 2 ∧ s.outcome = some (.haltedError, 2, s.cause)) ∧
    (s.run = .abortedOob → s.exitCode = some s.cfg.abortExitCode ∧
      s.outcome = some (.abortedOob, s.cfg.abortExitCode, s.cause)) ∧
    (s.status.run = s.run ∧ s.status.cause = s.cause ∧ s.status.exitCode = s.exitCode ∧ s.status.lt = s.flagLt ∧
      s.status.eq = s.flagEq ∧ s.status.gt = s.flagGt ∧ s.status.ovf = s.flagOvf ∧ s.status.dbz = s.flagDbz ∧
      s.status.ioerr = s.flagIoerr)) ∧
  (∀ s u : State, step s = .next u → u.run = .abortedOob → u.exitCode = some s.cfg.abortExitCode) ∧
  (∀ s t : State, s.cfg.wf → t.cfg = s.cfg → s.exitCode = t.exitCode → s.run = t.run)

/-! ## Console and disk -/

/-- Console writes (R221, R222, which the spec marks as its decision D17): the event goes to the end of `CONOUT`, whole and with
its format bit, and nothing else changes. -/
def Obligations.ConsoleWriteAppends : Prop :=
  ∀ (s : State) (ra : RegNum) (f : Fmt),
    (Does (.wrw ra f) s [.conout] fun t => t.conout = s.conout ++ [⟨f, s.readReg ra⟩]) ∧
    (Does (.wrwa f) s [.conout] fun t => t.conout = s.conout ++ [⟨f, s.acc⟩])

/-- Console reads (R223, R224, which the spec marks as its decisions D17 and D27): the answer is a free value of the environment,
of which nothing is assumed. On success the destination receives its word, on failure it keeps the one it has; `flag.IOERR` is 1
exactly on failure; the request is recorded and nothing else changes. -/
def Obligations.ConsoleReadTakesTheAnswer : Prop :=
  ∀ (s : State) (ra : RegNum) (f : Fmt),
    (Does (.rdw ra f) s [.reg ra, .ioerr, .env] fun t =>
      t.readReg ra = (if (Config.conRead s.sent f).1 then (Config.conRead s.sent f).2 else s.readReg ra) ∧
      t.flagIoerr = !(Config.conRead s.sent f).1 ∧ t.envLog = s.envLog ++ [.conRead f]) ∧
    (Does (.rdwa f) s [.acc, .ioerr, .env] fun t =>
      t.acc = (if (Config.conRead s.sent f).1 then (Config.conRead s.sent f).2 else s.acc) ∧
      t.flagIoerr = !(Config.conRead s.sent f).1 ∧ t.envLog = s.envLog ++ [.conRead f])

/-- Opening a slot (R231, which the spec marks as its decisions D18 and D27): the answer is a free value of the environment, of
which nothing is assumed. On success the slot is open, on failure it stays as it was; `flag.IOERR` is 1 exactly on failure; the
request is recorded and nothing else changes. -/
def Obligations.OpenTakesTheAnswer : Prop :=
  ∀ (s : State) (n : Slot),
    Does (.openSlot n) s [.handle n, .ioerr, .env] fun t =>
      t.readHandle n = (if Config.diskOpen s.sent n then true else s.readHandle n) ∧
      t.flagIoerr = !Config.diskOpen s.sent n ∧ t.envLog = s.envLog ++ [.diskOpen n]

/-- Closing a slot (R232, which the spec marks as its decision D18): an open slot is closed and the device told; a closed slot
changes nothing; `IOERR` keeps its value. -/
def Obligations.CloseOnlyActsOnOpenSlots : Prop :=
  ∀ (s : State) (n : Slot),
    (s.readHandle n = true →
      Does (.closeSlot n) s [.handle n, .env] fun t =>
        t.readHandle n = false ∧ t.envLog = s.envLog ++ [.diskClose n]) ∧
    (s.readHandle n = false → Does (.closeSlot n) s [] fun _ => True)

/-- The stream stubs (R233, R234, which the spec marks as its decisions D19 and D20; that a stub carries the opcode it was dispatched
under is log 8): one `NOT_IMPLEMENTED` event with the opcode and the address of the word, no other change, and the core goes on at
the next word, with `IC_OOB` where that is outside memory (R96, decision D6). -/
def Obligations.StreamStubsReportAndContinue : Prop :=
  ∀ (s : State) (o : Opcode) (i : Instr), i = .fread o ∨ i = .fwrite o →
    (Does i s [.diag] fun t => t.diag = s.diag ++ [.notImplemented o s.ic]) ∧
    (Fetches s i → GoesTo s (nextAddress s) [.diag] fun u => u.diag = s.diag ++ [.notImplemented o s.ic])

/-- The handle table has no other reader and no other writer than `OPEN` and `CLOSE` (R40, R235; the spec marks only the reset
value as a decision). The second clause compares two executions; for `RDW` and `RDWA` it rests on the model's choice of log 4,
that equal histories get equal answers from the environment. -/
def Obligations.HandleTableOwnership : Prop :=
  (∀ (i : Instr) (s t : State), exec i s = .next t → (∀ n, i ≠ .openSlot n ∧ i ≠ .closeSlot n) → t.handle = s.handle) ∧
  (∀ (i : Instr) (s t t' : State) (h : Vector Bool 16), (∀ n, i ≠ .openSlot n ∧ i ≠ .closeSlot n) →
    exec i s = .next t → exec i { s with handle := h } = .next t' →
      ∀ p : StatePart, (∀ n, p ≠ .handle n) → p.Same t t')

/-! ## The whole machine -/

/-- Who writes a general register and who writes memory (R21, R53, which the spec derives or marks as decision D1). -/
def Obligations.RegisterAndMemoryWriters : Prop :=
  ∀ (i : Instr) (s t : State), exec i s = .next t →
    (∀ n, t.readReg n ≠ s.readReg n → writtenRegister i = some n) ∧
      (∀ a, t.mem.read a ≠ s.mem.read a → ∃ v, storedCell i = some v ∧ dataAddress v = a)

/-- The parameters never change (R102, which the spec marks as decision D2: no instruction writes the dispatch table, and it is
not in memory), and the output streams and the record of requests only grow (R43, R44). -/
def Obligations.ParametersFixedAndStreamsGrow : Prop :=
  ∀ s t : State, Reaches s t →
    t.cfg = s.cfg ∧ s.diag <+: t.diag ∧ s.conout <+: t.conout ∧ s.envLog <+: t.envLog

/-- The invariant of the machine is kept by every step: the parameters in bounds, memory in its canonical form and inside
`MEMSIZE`, a running core's `ic` inside memory (R98, which the spec derives), at most one comparison flag (R27), an abort cause
exactly in `ABORTED_OOB` (R34). The bounds are the spec's decisions D21 and D23, the cause D25; the canonical form is the model's,
log 1. -/
def Obligations.StepKeepsTheInvariant : Prop :=
  ∀ s u : State, s.Inv → step s = .next u → u.Inv

/-- The invariant holds at `State.reset`, whose parameters are the defaults (log 2) and whose image is empty (log 3). The
canonical form it asks of memory is log 1; the bounds of the parameters are the spec's decisions D21 and D23, the cause D25. -/
def Obligations.ResetMeetsTheInvariant : Prop :=
  State.reset.Inv

/-- No run stops in a fault or a refusal: whatever is reached from a reset with any parameters in bounds and any image that fits,
the next step answers a next state (R98: the fetch never reads outside memory, so the fault of log 6 is never met). That a
terminal state answers one at all, itself, is the model's choice of log 5: the spec performs no cycle there (R99, D28). -/
def Obligations.RunsNeverStop : Prop :=
  ∀ s : State, Booted s → s.Safe

/-! ## Reset and boot -/

/-- R262: word `i` of the image goes to `mem[i]`, and memory beyond the image is zero; an empty image is allowed and gives an
all-zero memory. That a core with any parameters in bounds starts on the empty image rests on the bounds: of `MEMSIZE` the spec's
decision D23, of the exit code of an abort D21; that the exit code has no other bound is the model's choice, log 13. -/
def Obligations.BootLoadsTheImage : Prop :=
  (∀ (cfg : Config) (image : List Word) (s : State), boot cfg image = some s →
    (∀ i (h : i < image.length), s.mem.read i = image[i]) ∧ ∀ i, image.length ≤ i → s.mem.read i = 0) ∧
  ∀ cfg : Config, cfg.wf → ∃ s, boot cfg [] = some s ∧ ∀ i, s.mem.read i = 0

/-- The state after reset (R47, R91, R260; the call stack, `top`, the handles and `cause` are the spec's decisions D11 and D25,
the streams D17 and D20; the empty record of requests is the model's choice, log 4, and so is the field that holds the
parameters, log 2), whatever the image. -/
def Obligations.ResetValues : Prop :=
  ∀ (cfg : Config) (image : List Word) (s : State), boot cfg image = some s →
    (∀ n, s.readReg n = 0) ∧ s.acc = 0 ∧ s.jmp = 0 ∧ s.ic = 0 ∧ s.flagLt = false ∧ s.flagEq = false ∧
      s.flagGt = false ∧ s.flagOvf = false ∧ s.flagDbz = false ∧ s.flagIoerr = false ∧ s.run = .running ∧
      s.cause = .none ∧ (∀ k : Fin 100, s.cstack[k.val] = 0) ∧ s.top.val = 0 ∧ (∀ n, s.readHandle n = false) ∧
      s.diag = [] ∧ s.conout = [] ∧ s.envLog = [] ∧ s.cfg = cfg

/-- The loader's duties (R263, R54, R6). A file whose length is no multiple of four is refused, any other gives its words in the
file's byte order: that the order is a parameter is the spec's decision D22, that it takes two values and that big-endian puts
byte 0 at bits 31:24 is the model's choice, log 12. Parameters out of bounds (decision D23 for `MEMSIZE`, D21 for the exit code of
an abort, which is neither 0 nor 2; that it has no other bound is the model's choice, log 13) or an image longer than memory (D22)
never start the core, and anything else does. From a file, the core starts exactly where none of these holds, its memory being the
file's words in the order of its parameter. -/
def Obligations.LoaderRefusesWhatItMust : Prop :=
  (∀ (e : Endian) (bytes : List (BitVec 8)), imageOfBytes e bytes = none ↔ bytes.length % 4 ≠ 0) ∧
  (∀ (e : Endian) (bytes : List (BitVec 8)) (ws : List Word), imageOfBytes e bytes = some ws →
    bytes.length = 4 * ws.length ∧
    ∀ i (h : i < ws.length) (k : Fin 4) (hb : 4 * i + k.val < bytes.length),
      bytes[4 * i + k.val] =
        ws[i].extractLsb' (match e with | .little => 8 * k.val | .big => 24 - 8 * k.val) 8) ∧
  (∀ (cfg : Config) (image : List Word), boot cfg image = none ↔ ¬cfg.wf ∨ cfg.memSize < image.length) ∧
  (∀ (cfg : Config) (bytes : List (BitVec 8)),
    bootFile cfg bytes = none ↔ bytes.length % 4 ≠ 0 ∨ ¬cfg.wf ∨ cfg.memSize < bytes.length / 4) ∧
  (∀ (cfg : Config) (bytes : List (BitVec 8)) (s : State), bootFile cfg bytes = some s →
    ∀ (i : Nat) (k : Fin 4) (hb : 4 * i + k.val < bytes.length),
      bytes[4 * i + k.val] =
        (s.mem.read i).extractLsb' (match cfg.imageEndian with | .little => 8 * k.val | .big => 24 - 8 * k.val) 8)

/-- The invariant holds right after every reset, with any parameters in bounds and any image that fits (R47, R260, R262). The
canonical form it asks of memory is log 1; the bounds of the parameters are the spec's decisions D21 and D23, the cause D25, and
that an image too long never starts is D22. -/
def Obligations.EveryResetMeetsTheInvariant : Prop :=
  ∀ s : State, Booted s → s.Inv
end

