-- ==== Sys2Proof/Laws/PerInstr.lean ====
section
/-!
SUPPORT. For each instruction: taking it apart into its fields and rebuilding it from them gives it back (spec `30_encoding.md`
R74, R83).
-/

namespace Sys2Proof

/-- The format bit survives the field `a2` it is put into (R220). -/
@[simp] theorem fmtOf_zeroExtend (f : Fmt) : fmtOf (f.zeroExtend 4) = f := by
  revert f
  decide

end Sys2Proof

namespace Sys2Proof.Laws.FieldsRoundTrip

/-- The instruction its operation makes of its own fields, under any opcode (under the carried one for a stream stub). -/
def Statement (i : Instr) : Prop :=
  ∀ o : Opcode, (∀ c, i.carriedOpcode = some c → c = o) → i.op.instr (i.fields o) = i

theorem halt : Statement .halt := fun _ _ => rfl
theorem halte : Statement .halte := fun _ _ => rfl
theorem mov (ra rb : RegNum) : Statement (.mov ra rb) := fun _ _ => rfl
theorem movra (ra : RegNum) : Statement (.movra ra) := fun _ _ => rfl
theorem movar (ra : RegNum) : Statement (.movar ra) := fun _ _ => rfl
theorem movrj (ra : RegNum) : Statement (.movrj ra) := fun _ _ => rfl
theorem movjr (ra : RegNum) : Statement (.movjr ra) := fun _ _ => rfl
theorem movaj : Statement .movaj := fun _ _ => rfl
theorem movja : Statement .movja := fun _ _ => rfl
theorem ldi (rd : RegNum) (imm : Arg16) : Statement (.ldi rd imm) := fun _ _ => rfl
theorem ldia (imm : Arg16) : Statement (.ldia imm) := fun _ _ => rfl
theorem ldij (imm : Arg16) : Statement (.ldij imm) := fun _ _ => rfl
theorem ld (ra : RegNum) (addr : Arg16) : Statement (.ld ra addr) := fun _ _ => rfl
theorem lda (addr : Arg16) : Statement (.lda addr) := fun _ _ => rfl
theorem ldj (addr : Arg16) : Statement (.ldj addr) := fun _ _ => rfl
theorem st (ra : RegNum) (addr : Arg16) : Statement (.st ra addr) := fun _ _ => rfl
theorem sta (addr : Arg16) : Statement (.sta addr) := fun _ _ => rfl
theorem stj (addr : Arg16) : Statement (.stj addr) := fun _ _ => rfl
theorem add (ra rb : RegNum) : Statement (.add ra rb) := fun _ _ => rfl
theorem addar (ra : RegNum) : Statement (.addar ra) := fun _ _ => rfl
theorem addaj : Statement .addaj := fun _ _ => rfl
theorem sub (ra rb : RegNum) : Statement (.sub ra rb) := fun _ _ => rfl
theorem subar (ra : RegNum) : Statement (.subar ra) := fun _ _ => rfl
theorem subaj : Statement .subaj := fun _ _ => rfl
theorem mult (ra rb : RegNum) : Statement (.mult ra rb) := fun _ _ => rfl
theorem multar (ra : RegNum) : Statement (.multar ra) := fun _ _ => rfl
theorem multaj : Statement .multaj := fun _ _ => rfl
theorem div (ra rb : RegNum) : Statement (.div ra rb) := fun _ _ => rfl
theorem divar (ra : RegNum) : Statement (.divar ra) := fun _ _ => rfl
theorem divaj : Statement .divaj := fun _ _ => rfl
theorem mod (ra rb : RegNum) : Statement (.mod ra rb) := fun _ _ => rfl
theorem modar (ra : RegNum) : Statement (.modar ra) := fun _ _ => rfl
theorem modaj : Statement .modaj := fun _ _ => rfl
theorem and (ra rb : RegNum) : Statement (.and ra rb) := fun _ _ => rfl
theorem andar (ra : RegNum) : Statement (.andar ra) := fun _ _ => rfl
theorem andaj : Statement .andaj := fun _ _ => rfl
theorem or (ra rb : RegNum) : Statement (.or ra rb) := fun _ _ => rfl
theorem orar (ra : RegNum) : Statement (.orar ra) := fun _ _ => rfl
theorem oraj : Statement .oraj := fun _ _ => rfl
theorem not (ra : RegNum) : Statement (.not ra) := fun _ _ => rfl
theorem nota : Statement .nota := fun _ _ => rfl
theorem notj : Statement .notj := fun _ _ => rfl
theorem shl (ra rb : RegNum) : Statement (.shl ra rb) := fun _ _ => rfl
theorem shlar (ra : RegNum) : Statement (.shlar ra) := fun _ _ => rfl
theorem shlaj : Statement .shlaj := fun _ _ => rfl
theorem shr (ra rb : RegNum) : Statement (.shr ra rb) := fun _ _ => rfl
theorem shrar (ra : RegNum) : Statement (.shrar ra) := fun _ _ => rfl
theorem shraj : Statement .shraj := fun _ _ => rfl
theorem cmp (ra rb : RegNum) : Statement (.cmp ra rb) := fun _ _ => rfl
theorem cmpar (ra : RegNum) : Statement (.cmpar ra) := fun _ _ => rfl
theorem cmpaj : Statement .cmpaj := fun _ _ => rfl
theorem cmprm (ra : RegNum) (addr : Arg16) : Statement (.cmprm ra addr) := fun _ _ => rfl
theorem cmpam (addr : Arg16) : Statement (.cmpam addr) := fun _ _ => rfl
theorem bran (target : Arg16) : Statement (.bran target) := fun _ _ => rfl
theorem brlt (target : Arg16) : Statement (.brlt target) := fun _ _ => rfl
theorem breq (target : Arg16) : Statement (.breq target) := fun _ _ => rfl
theorem brgt (target : Arg16) : Statement (.brgt target) := fun _ _ => rfl
theorem brle (target : Arg16) : Statement (.brle target) := fun _ _ => rfl
theorem brge (target : Arg16) : Statement (.brge target) := fun _ _ => rfl
theorem brgl (target : Arg16) : Statement (.brgl target) := fun _ _ => rfl
theorem call (target : Arg16) : Statement (.call target) := fun _ _ => rfl
theorem ret : Statement .ret := fun _ _ => rfl
theorem wrw (ra : RegNum) (fmt : Fmt) : Statement (.wrw ra fmt) := fun _ _ => congrArg _ (fmtOf_zeroExtend fmt)
theorem wrwa (fmt : Fmt) : Statement (.wrwa fmt) := fun _ _ => congrArg _ (fmtOf_zeroExtend fmt)
theorem rdw (ra : RegNum) (fmt : Fmt) : Statement (.rdw ra fmt) := fun _ _ => congrArg _ (fmtOf_zeroExtend fmt)
theorem rdwa (fmt : Fmt) : Statement (.rdwa fmt) := fun _ _ => congrArg _ (fmtOf_zeroExtend fmt)
theorem openSlot (slot : Slot) : Statement (.openSlot slot) := fun _ _ => rfl
theorem closeSlot (slot : Slot) : Statement (.closeSlot slot) := fun _ _ => rfl
theorem fread (op : Opcode) : Statement (.fread op) := fun _ h => congrArg Instr.fread (h op rfl).symm
theorem fwrite (op : Opcode) : Statement (.fwrite op) := fun _ h => congrArg Instr.fwrite (h op rfl).symm

end Sys2Proof.Laws.FieldsRoundTrip
end

