-- ==== Sys2Proof/Laws/Codec.lean ====
section
/-!
SUPPORT. The codec (spec `30_encoding.md` R71, R72): what the four fields of a word are as numbers, and that taking a word apart
undoes putting it together.
-/

namespace Sys2Proof

/-- Two field records with the same numbers are the same. -/
theorem Fields.ext_toNat {f g : Fields} (h0 : f.op.toNat = g.op.toNat) (h1 : f.a1.toNat = g.a1.toNat)
    (h2 : f.a2.toNat = g.a2.toNat) (h3 : f.a3.toNat = g.a3.toNat) : f = g := by
  cases f; cases g
  simp only [Fields.mk.injEq]
  exact ⟨BitVec.eq_of_toNat_eq h0, BitVec.eq_of_toNat_eq h1, BitVec.eq_of_toNat_eq h2,
    BitVec.eq_of_toNat_eq h3⟩

/-- `encode` as a number: each argument modulo its field size, in its place (R72). -/
theorem encodeInts_toNat (o a b c : Int) :
    ((encodeInts o a b c).toNat : Int) = (o % 256) * 2 ^ 24 + (a % 16) * 2 ^ 20 + (b % 16) * 2 ^ 16 + c % 65536 := by
  obtain ⟨o', ho⟩ := Int.eq_ofNat_of_zero_le (Int.emod_nonneg o (b := 256) (by decide))
  obtain ⟨a', ha⟩ := Int.eq_ofNat_of_zero_le (Int.emod_nonneg a (b := 16) (by decide))
  obtain ⟨b', hb⟩ := Int.eq_ofNat_of_zero_le (Int.emod_nonneg b (b := 16) (by decide))
  obtain ⟨c', hc⟩ := Int.eq_ofNat_of_zero_le (Int.emod_nonneg c (b := 65536) (by decide))
  have h1 : o' < 256 := by omega
  have h2 : a' < 16 := by omega
  have h3 : b' < 16 := by omega
  have h4 : c' < 65536 := by omega
  unfold encodeInts
  rw [ho, ha, hb, hc]
  simp only [BitVec.toNat_or, BitVec.toNat_shiftLeft, BitVec.ofInt_natCast, BitVec.toNat_ofNat]
  rw [Nat.mod_eq_of_lt (a := o') (by omega), Nat.mod_eq_of_lt (a := a') (by omega),
    Nat.mod_eq_of_lt (a := b') (by omega), Nat.mod_eq_of_lt (a := c') (by omega)]
  simp only [Nat.shiftLeft_eq]
  rw [Nat.mod_eq_of_lt (a := o' * _) (by omega), Nat.mod_eq_of_lt (a := a' * _) (by omega),
    Nat.mod_eq_of_lt (a := b' * _) (by omega)]
  have e1 : o' * 2 ^ 24 ||| a' * 2 ^ 20 = (o' * 16 + a') * 2 ^ 20 := by
    rw [← Nat.shiftLeft_eq _ 20, ← Nat.shiftLeft_eq _ 24, show (24 : ℕ) = 4 + 20 from rfl, Nat.shiftLeft_add,
      ← Nat.shiftLeft_or_distrib, ← Nat.shiftLeft_add_eq_or_of_lt h2]
    simp [Nat.shiftLeft_eq]
  have e2 : (o' * 16 + a') * 2 ^ 20 ||| b' * 2 ^ 16 = ((o' * 16 + a') * 16 + b') * 2 ^ 16 := by
    rw [← Nat.shiftLeft_eq _ 20, ← Nat.shiftLeft_eq _ 16, show (20 : ℕ) = 4 + 16 from rfl, Nat.shiftLeft_add,
      ← Nat.shiftLeft_or_distrib, ← Nat.shiftLeft_add_eq_or_of_lt h3]
    simp [Nat.shiftLeft_eq]
  have e3 : ((o' * 16 + a') * 16 + b') * 2 ^ 16 ||| c' = ((o' * 16 + a') * 16 + b') * 2 ^ 16 + c' := by
    rw [← Nat.shiftLeft_eq, ← Nat.shiftLeft_add_eq_or_of_lt h4]
  rw [e1, e2, e3]
  push_cast
  ring

/-- The fields of a word as numbers (R71). -/
theorem fieldsOf_toNat (w : Word) :
    (fieldsOf w).op.toNat = w.toNat / 2 ^ 24 ∧ (fieldsOf w).a1.toNat = w.toNat / 2 ^ 20 % 16 ∧
      (fieldsOf w).a2.toNat = w.toNat / 2 ^ 16 % 16 ∧ (fieldsOf w).a3.toNat = w.toNat % 65536 := by
  simp [fieldsOf, BitVec.extractLsb'_toNat, Nat.shiftRight_eq_div_pow]
  have := w.isLt
  omega

/-- Taking apart a word made of fields gives the fields back (R72). -/
theorem fieldsOf_wordOf (f : Fields) : fieldsOf (wordOf f) = f := by
  have hw := encodeInts_toNat f.op.toNat f.a1.toNat f.a2.toNat f.a3.toNat
  have h0 := f.op.isLt
  have h1 := f.a1.isLt
  have h2 := f.a2.isLt
  have h3 := f.a3.isLt
  obtain ⟨e0, e1, e2, e3⟩ := fieldsOf_toNat (wordOf f)
  unfold wordOf at *
  apply Fields.ext_toNat <;> omega

/-- Two bit vectors side by side, as a number. -/
theorem toNat_append_eq {m n : Nat} (x : BitVec m) (y : BitVec n) : (x ++ y).toNat = x.toNat * 2 ^ n + y.toNat := by
  rw [BitVec.toNat_append, ← Nat.shiftLeft_add_eq_or_of_lt y.isLt, Nat.shiftLeft_eq]

/-- The fields of a word written as four fields side by side. -/
theorem fieldsOf_append (o : Opcode) (a1 a2 : BitVec 4) (a3 : Arg16) :
    fieldsOf (o ++ a1 ++ a2 ++ a3) = ⟨o, a1, a2, a3⟩ := by
  have hw : (o ++ a1 ++ a2 ++ a3).toNat = ((o.toNat * 16 + a1.toNat) * 16 + a2.toNat) * 65536 + a3.toNat := by
    simp only [toNat_append_eq]
    rfl
  have h0 := o.isLt
  have h1 := a1.isLt
  have h2 := a2.isLt
  have h3 := a3.isLt
  obtain ⟨e0, e1, e2, e3⟩ := fieldsOf_toNat (o ++ a1 ++ a2 ++ a3)
  apply Fields.ext_toNat <;> simp only [e0, e1, e2, e3] <;> omega

/-- A row the default table has decodes by its operation and its fields. -/
theorem decode_of_lookup {d : Dispatch} {w : Word} {op : Op} (h : d.lookup (fieldsOf w).op = some op) :
    decode d w = .ok (op.instr (fieldsOf w)) := by
  simp [decode, h]

/-- A word whose opcode has no row is rejected by the name of the opcode (R79). -/
theorem decode_of_lookup_none {d : Dispatch} {w : Word} (h : d.lookup (fieldsOf w).op = none) :
    decode d w = .error (.unassignedOpcode (fieldsOf w).op) := by
  simp [decode, h]

end Sys2Proof
end

