-- ==== Sys2Proof/Laws/Memory.lean ====
section
/-!
SUPPORT. The laws of main memory: a read after a write (spec `20_memory.md` R51, R52, R57), the canonical form kept by every
operation, and what loading an image leaves (`70_reset_and_hazards.md` R262).
-/

namespace Sys2Proof.Machine

/-! ## Reading -/

@[simp] theorem Memory.read_nil (a : Nat) : Memory.read [] a = 0 := rfl

theorem Memory.read_cons (p : Nat × Word) (m : Memory) (a : Nat) :
    Memory.read (p :: m) a = if p.1 = a then p.2 else Memory.read m a := rfl

/-- An address that is not listed reads as 0. -/
theorem Memory.read_eq_zero {m : Memory} {a : Nat} (h : ∀ p ∈ m, p.1 ≠ a) : m.read a = 0 := by
  induction m with
  | nil => rfl
  | cons p m ih =>
    rw [Memory.read_cons, if_neg (h p (by simp))]
    exact ih fun q hq => h q (by simp [hq])

theorem Memory.read_erase (m : Memory) (a b : Nat) :
    (m.erase a).read b = if b = a then 0 else m.read b := by
  induction m with
  | nil => simp [Memory.erase]
  | cons p m ih =>
    unfold Memory.erase at ih ⊢
    by_cases hp : p.1 = a
    · rw [List.filter_cons_of_neg (by simpa using hp), ih, Memory.read_cons, hp]
      by_cases hb : b = a
      · simp [hb]
      · rw [if_neg hb, if_neg hb, if_neg (Ne.symm hb)]
    · rw [List.filter_cons_of_pos (by simpa using hp), Memory.read_cons, Memory.read_cons, ih]
      by_cases hb : p.1 = b
      · simp only [hb, if_true]
        rw [if_neg (by rintro rfl; exact hp hb)]
      · simp only [hb, if_false]

theorem Memory.read_insert {m : Memory} {a : Nat} (h : ∀ p ∈ m, p.1 ≠ a) (v : Word) (b : Nat) :
    (m.insert a v).read b = if b = a then v else m.read b := by
  induction m with
  | nil =>
    by_cases hb : b = a
    · simp [Memory.insert, Memory.read_cons, hb]
    · simp [Memory.insert, Memory.read_cons, hb, Ne.symm hb]
  | cons p m ih =>
    have hm : ∀ q ∈ m, q.1 ≠ a := fun q hq => h q (by simp [hq])
    have hp : p.1 ≠ a := h p (by simp)
    unfold Memory.insert
    split
    · by_cases hb : b = a
      · simp [Memory.read_cons, hb]
      · simp [Memory.read_cons, hb, Ne.symm hb]
    · rw [Memory.read_cons, ih hm, Memory.read_cons]
      by_cases hb : b = a
      · subst hb
        simp [hp]
      · simp [hb]

theorem Memory.mem_erase {m : Memory} {a : Nat} {p : Nat × Word} : p ∈ m.erase a ↔ p ∈ m ∧ p.1 ≠ a := by
  simp [Memory.erase]

/-- A read after a write: the written word at its address, the old word at every other. -/
theorem Memory.read_write (m : Memory) (a : Nat) (v : Word) (b : Nat) :
    (m.write a v).read b = if b = a then v else m.read b := by
  unfold Memory.write
  split
  · next h => rw [Memory.read_erase, h]
  · rw [Memory.read_insert (fun p hp => (Memory.mem_erase.1 hp).2), Memory.read_erase]
    by_cases hb : b = a <;> simp [hb]

@[simp] theorem Memory.read_write_same (m : Memory) (a : Nat) (v : Word) : (m.write a v).read a = v := by
  simp [Memory.read_write]

theorem Memory.read_write_other (m : Memory) {a b : Nat} (v : Word) (h : b ≠ a) :
    (m.write a v).read b = m.read b := by
  simp [Memory.read_write, h]

/-! ## The canonical form -/

theorem Memory.mem_insert {m : Memory} {a : Nat} {v : Word} {p : Nat × Word} :
    p ∈ m.insert a v ↔ p = (a, v) ∨ p ∈ m := by
  induction m with
  | nil => simp [Memory.insert]
  | cons q m ih =>
    unfold Memory.insert
    split
    · simp
    · simp only [List.mem_cons, ih]
      tauto

/-- What a write lists: the new word where it is not 0, and every old entry of another address. -/
theorem Memory.mem_write {m : Memory} {a : Nat} {v : Word} {p : Nat × Word} :
    p ∈ m.write a v ↔ (p = (a, v) ∧ v ≠ 0) ∨ (p ∈ m ∧ p.1 ≠ a) := by
  unfold Memory.write
  split
  · next h => simp [Memory.mem_erase, h]
  · next h => rw [Memory.mem_insert, Memory.mem_erase, and_iff_left h]

theorem Memory.insert_pairwise {m : Memory} {a : Nat} {v : Word} (hm : m.Pairwise (fun p q => p.1 < q.1))
    (ha : ∀ p ∈ m, p.1 ≠ a) : (m.insert a v).Pairwise (fun p q => p.1 < q.1) := by
  induction m with
  | nil => simp [Memory.insert]
  | cons q m ih =>
    have hq := List.pairwise_cons.1 hm
    unfold Memory.insert
    split
    · next hlt =>
      refine List.pairwise_cons.2 ⟨?_, hm⟩
      intro p hp
      rcases List.mem_cons.1 hp with rfl | hp
      · exact hlt
      · exact lt_trans hlt (hq.1 p hp)
    · next hge =>
      refine List.pairwise_cons.2 ⟨?_, ih hq.2 fun p hp => ha p (by simp [hp])⟩
      intro p hp
      rcases Memory.mem_insert.1 hp with rfl | hp
      · have := ha q (by simp)
        simp only
        omega
      · exact hq.1 p hp

/-- A write keeps the canonical form. -/
theorem Memory.write_wf {m : Memory} (h : m.wf) (a : Nat) (v : Word) : (m.write a v).wf := by
  refine ⟨?_, ?_⟩
  · unfold Memory.write
    have he : (m.erase a).Pairwise (fun p q => p.1 < q.1) := h.1.filter _
    split
    · exact he
    · exact Memory.insert_pairwise he fun p hp => (Memory.mem_erase.1 hp).2
  · intro p hp
    rcases Memory.mem_write.1 hp with ⟨rfl, hv⟩ | ⟨hp, -⟩
    · exact hv
    · exact h.2 p hp

theorem Memory.nil_wf : Memory.wf [] := ⟨List.Pairwise.nil, fun _ h => absurd h List.not_mem_nil⟩

/-- A write inside memory lists no address outside it. -/
theorem Memory.write_bounded {m : Memory} {n : Nat} (h : ∀ p ∈ m, p.1 < n) {a : Nat} (ha : a < n) (v : Word) :
    ∀ p ∈ m.write a v, p.1 < n := by
  intro p hp
  rcases Memory.mem_write.1 hp with ⟨rfl, -⟩ | ⟨hp, -⟩
  · exact ha
  · exact h p hp

/-! ## Loading an image -/

theorem Memory.loadAt_wf {m : Memory} (h : m.wf) (base : Nat) (image : List Word) :
    (Memory.loadAt m base image).wf := by
  induction image generalizing m base with
  | nil => exact h
  | cons w rest ih => exact ih (Memory.write_wf h base w) (base + 1)

theorem Memory.loadAt_bounded {m : Memory} {n : Nat} (h : ∀ p ∈ m, p.1 < n) (base : Nat) (image : List Word)
    (hn : base + image.length ≤ n) : ∀ p ∈ Memory.loadAt m base image, p.1 < n := by
  induction image generalizing m base with
  | nil => exact h
  | cons w rest ih =>
    simp only [List.length_cons] at hn
    exact ih (Memory.write_bounded h (by omega) w) (base + 1) (by omega)

/-- A load leaves every address below its base alone. -/
theorem Memory.read_loadAt_below (m : Memory) (base : Nat) (image : List Word) {a : Nat} (h : a < base) :
    (Memory.loadAt m base image).read a = m.read a := by
  induction image generalizing m base with
  | nil => rfl
  | cons w rest ih =>
    rw [Memory.loadAt, ih _ _ (by omega), Memory.read_write_other _ _ (by omega)]

end Sys2Proof.Machine
end

