-- ==== Sys2Proof/Laws/State.lean ====
section
/-!
SUPPORT. What each field is after each named update: true by unfolding one record update, so that no proof unfolds one again.
-/

namespace Sys2Proof.Machine

variable (s : State)

/-! ### `State.writeReg` -/

@[simp] theorem State.writeReg_x (i : RegNum) (v : Word) : (s.writeReg i v).x = s.x.set i.toNat v := rfl
@[simp] theorem State.writeReg_acc (i : RegNum) (v : Word) : (s.writeReg i v).acc = s.acc := rfl
@[simp] theorem State.writeReg_jmp (i : RegNum) (v : Word) : (s.writeReg i v).jmp = s.jmp := rfl
@[simp] theorem State.writeReg_ic (i : RegNum) (v : Word) : (s.writeReg i v).ic = s.ic := rfl
@[simp] theorem State.writeReg_flagLt (i : RegNum) (v : Word) : (s.writeReg i v).flagLt = s.flagLt := rfl
@[simp] theorem State.writeReg_flagEq (i : RegNum) (v : Word) : (s.writeReg i v).flagEq = s.flagEq := rfl
@[simp] theorem State.writeReg_flagGt (i : RegNum) (v : Word) : (s.writeReg i v).flagGt = s.flagGt := rfl
@[simp] theorem State.writeReg_flagOvf (i : RegNum) (v : Word) : (s.writeReg i v).flagOvf = s.flagOvf := rfl
@[simp] theorem State.writeReg_flagDbz (i : RegNum) (v : Word) : (s.writeReg i v).flagDbz = s.flagDbz := rfl
@[simp] theorem State.writeReg_flagIoerr (i : RegNum) (v : Word) : (s.writeReg i v).flagIoerr = s.flagIoerr := rfl
@[simp] theorem State.writeReg_run (i : RegNum) (v : Word) : (s.writeReg i v).run = s.run := rfl
@[simp] theorem State.writeReg_cause (i : RegNum) (v : Word) : (s.writeReg i v).cause = s.cause := rfl
@[simp] theorem State.writeReg_cstack (i : RegNum) (v : Word) : (s.writeReg i v).cstack = s.cstack := rfl
@[simp] theorem State.writeReg_top (i : RegNum) (v : Word) : (s.writeReg i v).top = s.top := rfl
@[simp] theorem State.writeReg_handle (i : RegNum) (v : Word) : (s.writeReg i v).handle = s.handle := rfl
@[simp] theorem State.writeReg_mem (i : RegNum) (v : Word) : (s.writeReg i v).mem = s.mem := rfl
@[simp] theorem State.writeReg_diag (i : RegNum) (v : Word) : (s.writeReg i v).diag = s.diag := rfl
@[simp] theorem State.writeReg_conout (i : RegNum) (v : Word) : (s.writeReg i v).conout = s.conout := rfl
@[simp] theorem State.writeReg_envLog (i : RegNum) (v : Word) : (s.writeReg i v).envLog = s.envLog := rfl
@[simp] theorem State.writeReg_cfg (i : RegNum) (v : Word) : (s.writeReg i v).cfg = s.cfg := rfl

/-! ### `State.abort` -/

@[simp] theorem State.abort_x (c : AbortCause) : (s.abort c).x = s.x := rfl
@[simp] theorem State.abort_acc (c : AbortCause) : (s.abort c).acc = s.acc := rfl
@[simp] theorem State.abort_jmp (c : AbortCause) : (s.abort c).jmp = s.jmp := rfl
@[simp] theorem State.abort_ic (c : AbortCause) : (s.abort c).ic = s.ic := rfl
@[simp] theorem State.abort_flagLt (c : AbortCause) : (s.abort c).flagLt = s.flagLt := rfl
@[simp] theorem State.abort_flagEq (c : AbortCause) : (s.abort c).flagEq = s.flagEq := rfl
@[simp] theorem State.abort_flagGt (c : AbortCause) : (s.abort c).flagGt = s.flagGt := rfl
@[simp] theorem State.abort_flagOvf (c : AbortCause) : (s.abort c).flagOvf = s.flagOvf := rfl
@[simp] theorem State.abort_flagDbz (c : AbortCause) : (s.abort c).flagDbz = s.flagDbz := rfl
@[simp] theorem State.abort_flagIoerr (c : AbortCause) : (s.abort c).flagIoerr = s.flagIoerr := rfl
@[simp] theorem State.abort_run (c : AbortCause) : (s.abort c).run = .abortedOob := rfl
@[simp] theorem State.abort_cause (c : AbortCause) : (s.abort c).cause = c := rfl
@[simp] theorem State.abort_cstack (c : AbortCause) : (s.abort c).cstack = s.cstack := rfl
@[simp] theorem State.abort_top (c : AbortCause) : (s.abort c).top = s.top := rfl
@[simp] theorem State.abort_handle (c : AbortCause) : (s.abort c).handle = s.handle := rfl
@[simp] theorem State.abort_mem (c : AbortCause) : (s.abort c).mem = s.mem := rfl
@[simp] theorem State.abort_diag (c : AbortCause) : (s.abort c).diag = s.diag := rfl
@[simp] theorem State.abort_conout (c : AbortCause) : (s.abort c).conout = s.conout := rfl
@[simp] theorem State.abort_envLog (c : AbortCause) : (s.abort c).envLog = s.envLog := rfl
@[simp] theorem State.abort_cfg (c : AbortCause) : (s.abort c).cfg = s.cfg := rfl

/-! ### `State.report` -/

@[simp] theorem State.report_x (e : DiagEvent) : (s.report e).x = s.x := rfl
@[simp] theorem State.report_acc (e : DiagEvent) : (s.report e).acc = s.acc := rfl
@[simp] theorem State.report_jmp (e : DiagEvent) : (s.report e).jmp = s.jmp := rfl
@[simp] theorem State.report_ic (e : DiagEvent) : (s.report e).ic = s.ic := rfl
@[simp] theorem State.report_flagLt (e : DiagEvent) : (s.report e).flagLt = s.flagLt := rfl
@[simp] theorem State.report_flagEq (e : DiagEvent) : (s.report e).flagEq = s.flagEq := rfl
@[simp] theorem State.report_flagGt (e : DiagEvent) : (s.report e).flagGt = s.flagGt := rfl
@[simp] theorem State.report_flagOvf (e : DiagEvent) : (s.report e).flagOvf = s.flagOvf := rfl
@[simp] theorem State.report_flagDbz (e : DiagEvent) : (s.report e).flagDbz = s.flagDbz := rfl
@[simp] theorem State.report_flagIoerr (e : DiagEvent) : (s.report e).flagIoerr = s.flagIoerr := rfl
@[simp] theorem State.report_run (e : DiagEvent) : (s.report e).run = s.run := rfl
@[simp] theorem State.report_cause (e : DiagEvent) : (s.report e).cause = s.cause := rfl
@[simp] theorem State.report_cstack (e : DiagEvent) : (s.report e).cstack = s.cstack := rfl
@[simp] theorem State.report_top (e : DiagEvent) : (s.report e).top = s.top := rfl
@[simp] theorem State.report_handle (e : DiagEvent) : (s.report e).handle = s.handle := rfl
@[simp] theorem State.report_mem (e : DiagEvent) : (s.report e).mem = s.mem := rfl
@[simp] theorem State.report_diag (e : DiagEvent) : (s.report e).diag = s.diag ++ [e] := rfl
@[simp] theorem State.report_conout (e : DiagEvent) : (s.report e).conout = s.conout := rfl
@[simp] theorem State.report_envLog (e : DiagEvent) : (s.report e).envLog = s.envLog := rfl
@[simp] theorem State.report_cfg (e : DiagEvent) : (s.report e).cfg = s.cfg := rfl

/-! ### `State.conOut` -/

@[simp] theorem State.conOut_x (f : Fmt) (w : Word) : (s.conOut f w).x = s.x := rfl
@[simp] theorem State.conOut_acc (f : Fmt) (w : Word) : (s.conOut f w).acc = s.acc := rfl
@[simp] theorem State.conOut_jmp (f : Fmt) (w : Word) : (s.conOut f w).jmp = s.jmp := rfl
@[simp] theorem State.conOut_ic (f : Fmt) (w : Word) : (s.conOut f w).ic = s.ic := rfl
@[simp] theorem State.conOut_flagLt (f : Fmt) (w : Word) : (s.conOut f w).flagLt = s.flagLt := rfl
@[simp] theorem State.conOut_flagEq (f : Fmt) (w : Word) : (s.conOut f w).flagEq = s.flagEq := rfl
@[simp] theorem State.conOut_flagGt (f : Fmt) (w : Word) : (s.conOut f w).flagGt = s.flagGt := rfl
@[simp] theorem State.conOut_flagOvf (f : Fmt) (w : Word) : (s.conOut f w).flagOvf = s.flagOvf := rfl
@[simp] theorem State.conOut_flagDbz (f : Fmt) (w : Word) : (s.conOut f w).flagDbz = s.flagDbz := rfl
@[simp] theorem State.conOut_flagIoerr (f : Fmt) (w : Word) : (s.conOut f w).flagIoerr = s.flagIoerr := rfl
@[simp] theorem State.conOut_run (f : Fmt) (w : Word) : (s.conOut f w).run = s.run := rfl
@[simp] theorem State.conOut_cause (f : Fmt) (w : Word) : (s.conOut f w).cause = s.cause := rfl
@[simp] theorem State.conOut_cstack (f : Fmt) (w : Word) : (s.conOut f w).cstack = s.cstack := rfl
@[simp] theorem State.conOut_top (f : Fmt) (w : Word) : (s.conOut f w).top = s.top := rfl
@[simp] theorem State.conOut_handle (f : Fmt) (w : Word) : (s.conOut f w).handle = s.handle := rfl
@[simp] theorem State.conOut_mem (f : Fmt) (w : Word) : (s.conOut f w).mem = s.mem := rfl
@[simp] theorem State.conOut_diag (f : Fmt) (w : Word) : (s.conOut f w).diag = s.diag := rfl
@[simp] theorem State.conOut_conout (f : Fmt) (w : Word) : (s.conOut f w).conout = s.conout ++ [⟨f, w⟩] := rfl
@[simp] theorem State.conOut_envLog (f : Fmt) (w : Word) : (s.conOut f w).envLog = s.envLog := rfl
@[simp] theorem State.conOut_cfg (f : Fmt) (w : Word) : (s.conOut f w).cfg = s.cfg := rfl

/-! ### `State.ask` -/

@[simp] theorem State.ask_x (r : EnvRequest) : (s.ask r).x = s.x := rfl
@[simp] theorem State.ask_acc (r : EnvRequest) : (s.ask r).acc = s.acc := rfl
@[simp] theorem State.ask_jmp (r : EnvRequest) : (s.ask r).jmp = s.jmp := rfl
@[simp] theorem State.ask_ic (r : EnvRequest) : (s.ask r).ic = s.ic := rfl
@[simp] theorem State.ask_flagLt (r : EnvRequest) : (s.ask r).flagLt = s.flagLt := rfl
@[simp] theorem State.ask_flagEq (r : EnvRequest) : (s.ask r).flagEq = s.flagEq := rfl
@[simp] theorem State.ask_flagGt (r : EnvRequest) : (s.ask r).flagGt = s.flagGt := rfl
@[simp] theorem State.ask_flagOvf (r : EnvRequest) : (s.ask r).flagOvf = s.flagOvf := rfl
@[simp] theorem State.ask_flagDbz (r : EnvRequest) : (s.ask r).flagDbz = s.flagDbz := rfl
@[simp] theorem State.ask_flagIoerr (r : EnvRequest) : (s.ask r).flagIoerr = s.flagIoerr := rfl
@[simp] theorem State.ask_run (r : EnvRequest) : (s.ask r).run = s.run := rfl
@[simp] theorem State.ask_cause (r : EnvRequest) : (s.ask r).cause = s.cause := rfl
@[simp] theorem State.ask_cstack (r : EnvRequest) : (s.ask r).cstack = s.cstack := rfl
@[simp] theorem State.ask_top (r : EnvRequest) : (s.ask r).top = s.top := rfl
@[simp] theorem State.ask_handle (r : EnvRequest) : (s.ask r).handle = s.handle := rfl
@[simp] theorem State.ask_mem (r : EnvRequest) : (s.ask r).mem = s.mem := rfl
@[simp] theorem State.ask_diag (r : EnvRequest) : (s.ask r).diag = s.diag := rfl
@[simp] theorem State.ask_conout (r : EnvRequest) : (s.ask r).conout = s.conout := rfl
@[simp] theorem State.ask_envLog (r : EnvRequest) : (s.ask r).envLog = s.envLog ++ [r] := rfl
@[simp] theorem State.ask_cfg (r : EnvRequest) : (s.ask r).cfg = s.cfg := rfl

/-! ### `State.writeHandle` -/

@[simp] theorem State.writeHandle_x (n : Slot) (b : Bool) : (s.writeHandle n b).x = s.x := rfl
@[simp] theorem State.writeHandle_acc (n : Slot) (b : Bool) : (s.writeHandle n b).acc = s.acc := rfl
@[simp] theorem State.writeHandle_jmp (n : Slot) (b : Bool) : (s.writeHandle n b).jmp = s.jmp := rfl
@[simp] theorem State.writeHandle_ic (n : Slot) (b : Bool) : (s.writeHandle n b).ic = s.ic := rfl
@[simp] theorem State.writeHandle_flagLt (n : Slot) (b : Bool) : (s.writeHandle n b).flagLt = s.flagLt := rfl
@[simp] theorem State.writeHandle_flagEq (n : Slot) (b : Bool) : (s.writeHandle n b).flagEq = s.flagEq := rfl
@[simp] theorem State.writeHandle_flagGt (n : Slot) (b : Bool) : (s.writeHandle n b).flagGt = s.flagGt := rfl
@[simp] theorem State.writeHandle_flagOvf (n : Slot) (b : Bool) : (s.writeHandle n b).flagOvf = s.flagOvf := rfl
@[simp] theorem State.writeHandle_flagDbz (n : Slot) (b : Bool) : (s.writeHandle n b).flagDbz = s.flagDbz := rfl
@[simp] theorem State.writeHandle_flagIoerr (n : Slot) (b : Bool) : (s.writeHandle n b).flagIoerr = s.flagIoerr := rfl
@[simp] theorem State.writeHandle_run (n : Slot) (b : Bool) : (s.writeHandle n b).run = s.run := rfl
@[simp] theorem State.writeHandle_cause (n : Slot) (b : Bool) : (s.writeHandle n b).cause = s.cause := rfl
@[simp] theorem State.writeHandle_cstack (n : Slot) (b : Bool) : (s.writeHandle n b).cstack = s.cstack := rfl
@[simp] theorem State.writeHandle_top (n : Slot) (b : Bool) : (s.writeHandle n b).top = s.top := rfl
@[simp] theorem State.writeHandle_handle (n : Slot) (b : Bool) : (s.writeHandle n b).handle = s.handle.set n.toNat b := rfl
@[simp] theorem State.writeHandle_mem (n : Slot) (b : Bool) : (s.writeHandle n b).mem = s.mem := rfl
@[simp] theorem State.writeHandle_diag (n : Slot) (b : Bool) : (s.writeHandle n b).diag = s.diag := rfl
@[simp] theorem State.writeHandle_conout (n : Slot) (b : Bool) : (s.writeHandle n b).conout = s.conout := rfl
@[simp] theorem State.writeHandle_envLog (n : Slot) (b : Bool) : (s.writeHandle n b).envLog = s.envLog := rfl
@[simp] theorem State.writeHandle_cfg (n : Slot) (b : Bool) : (s.writeHandle n b).cfg = s.cfg := rfl

/-! ### `State.setOvf` -/

@[simp] theorem State.setOvf_x (b : Bool) : (s.setOvf b).x = s.x := rfl
@[simp] theorem State.setOvf_acc (b : Bool) : (s.setOvf b).acc = s.acc := rfl
@[simp] theorem State.setOvf_jmp (b : Bool) : (s.setOvf b).jmp = s.jmp := rfl
@[simp] theorem State.setOvf_ic (b : Bool) : (s.setOvf b).ic = s.ic := rfl
@[simp] theorem State.setOvf_flagLt (b : Bool) : (s.setOvf b).flagLt = s.flagLt := rfl
@[simp] theorem State.setOvf_flagEq (b : Bool) : (s.setOvf b).flagEq = s.flagEq := rfl
@[simp] theorem State.setOvf_flagGt (b : Bool) : (s.setOvf b).flagGt = s.flagGt := rfl
@[simp] theorem State.setOvf_flagOvf (b : Bool) : (s.setOvf b).flagOvf = b := rfl
@[simp] theorem State.setOvf_flagDbz (b : Bool) : (s.setOvf b).flagDbz = s.flagDbz := rfl
@[simp] theorem State.setOvf_flagIoerr (b : Bool) : (s.setOvf b).flagIoerr = s.flagIoerr := rfl
@[simp] theorem State.setOvf_run (b : Bool) : (s.setOvf b).run = s.run := rfl
@[simp] theorem State.setOvf_cause (b : Bool) : (s.setOvf b).cause = s.cause := rfl
@[simp] theorem State.setOvf_cstack (b : Bool) : (s.setOvf b).cstack = s.cstack := rfl
@[simp] theorem State.setOvf_top (b : Bool) : (s.setOvf b).top = s.top := rfl
@[simp] theorem State.setOvf_handle (b : Bool) : (s.setOvf b).handle = s.handle := rfl
@[simp] theorem State.setOvf_mem (b : Bool) : (s.setOvf b).mem = s.mem := rfl
@[simp] theorem State.setOvf_diag (b : Bool) : (s.setOvf b).diag = s.diag := rfl
@[simp] theorem State.setOvf_conout (b : Bool) : (s.setOvf b).conout = s.conout := rfl
@[simp] theorem State.setOvf_envLog (b : Bool) : (s.setOvf b).envLog = s.envLog := rfl
@[simp] theorem State.setOvf_cfg (b : Bool) : (s.setOvf b).cfg = s.cfg := rfl

/-! ### `State.setDbz` -/

@[simp] theorem State.setDbz_x (b : Bool) : (s.setDbz b).x = s.x := rfl
@[simp] theorem State.setDbz_acc (b : Bool) : (s.setDbz b).acc = s.acc := rfl
@[simp] theorem State.setDbz_jmp (b : Bool) : (s.setDbz b).jmp = s.jmp := rfl
@[simp] theorem State.setDbz_ic (b : Bool) : (s.setDbz b).ic = s.ic := rfl
@[simp] theorem State.setDbz_flagLt (b : Bool) : (s.setDbz b).flagLt = s.flagLt := rfl
@[simp] theorem State.setDbz_flagEq (b : Bool) : (s.setDbz b).flagEq = s.flagEq := rfl
@[simp] theorem State.setDbz_flagGt (b : Bool) : (s.setDbz b).flagGt = s.flagGt := rfl
@[simp] theorem State.setDbz_flagOvf (b : Bool) : (s.setDbz b).flagOvf = s.flagOvf := rfl
@[simp] theorem State.setDbz_flagDbz (b : Bool) : (s.setDbz b).flagDbz = b := rfl
@[simp] theorem State.setDbz_flagIoerr (b : Bool) : (s.setDbz b).flagIoerr = s.flagIoerr := rfl
@[simp] theorem State.setDbz_run (b : Bool) : (s.setDbz b).run = s.run := rfl
@[simp] theorem State.setDbz_cause (b : Bool) : (s.setDbz b).cause = s.cause := rfl
@[simp] theorem State.setDbz_cstack (b : Bool) : (s.setDbz b).cstack = s.cstack := rfl
@[simp] theorem State.setDbz_top (b : Bool) : (s.setDbz b).top = s.top := rfl
@[simp] theorem State.setDbz_handle (b : Bool) : (s.setDbz b).handle = s.handle := rfl
@[simp] theorem State.setDbz_mem (b : Bool) : (s.setDbz b).mem = s.mem := rfl
@[simp] theorem State.setDbz_diag (b : Bool) : (s.setDbz b).diag = s.diag := rfl
@[simp] theorem State.setDbz_conout (b : Bool) : (s.setDbz b).conout = s.conout := rfl
@[simp] theorem State.setDbz_envLog (b : Bool) : (s.setDbz b).envLog = s.envLog := rfl
@[simp] theorem State.setDbz_cfg (b : Bool) : (s.setDbz b).cfg = s.cfg := rfl

/-! ### `State.setIoerr` -/

@[simp] theorem State.setIoerr_x (b : Bool) : (s.setIoerr b).x = s.x := rfl
@[simp] theorem State.setIoerr_acc (b : Bool) : (s.setIoerr b).acc = s.acc := rfl
@[simp] theorem State.setIoerr_jmp (b : Bool) : (s.setIoerr b).jmp = s.jmp := rfl
@[simp] theorem State.setIoerr_ic (b : Bool) : (s.setIoerr b).ic = s.ic := rfl
@[simp] theorem State.setIoerr_flagLt (b : Bool) : (s.setIoerr b).flagLt = s.flagLt := rfl
@[simp] theorem State.setIoerr_flagEq (b : Bool) : (s.setIoerr b).flagEq = s.flagEq := rfl
@[simp] theorem State.setIoerr_flagGt (b : Bool) : (s.setIoerr b).flagGt = s.flagGt := rfl
@[simp] theorem State.setIoerr_flagOvf (b : Bool) : (s.setIoerr b).flagOvf = s.flagOvf := rfl
@[simp] theorem State.setIoerr_flagDbz (b : Bool) : (s.setIoerr b).flagDbz = s.flagDbz := rfl
@[simp] theorem State.setIoerr_flagIoerr (b : Bool) : (s.setIoerr b).flagIoerr = b := rfl
@[simp] theorem State.setIoerr_run (b : Bool) : (s.setIoerr b).run = s.run := rfl
@[simp] theorem State.setIoerr_cause (b : Bool) : (s.setIoerr b).cause = s.cause := rfl
@[simp] theorem State.setIoerr_cstack (b : Bool) : (s.setIoerr b).cstack = s.cstack := rfl
@[simp] theorem State.setIoerr_top (b : Bool) : (s.setIoerr b).top = s.top := rfl
@[simp] theorem State.setIoerr_handle (b : Bool) : (s.setIoerr b).handle = s.handle := rfl
@[simp] theorem State.setIoerr_mem (b : Bool) : (s.setIoerr b).mem = s.mem := rfl
@[simp] theorem State.setIoerr_diag (b : Bool) : (s.setIoerr b).diag = s.diag := rfl
@[simp] theorem State.setIoerr_conout (b : Bool) : (s.setIoerr b).conout = s.conout := rfl
@[simp] theorem State.setIoerr_envLog (b : Bool) : (s.setIoerr b).envLog = s.envLog := rfl
@[simp] theorem State.setIoerr_cfg (b : Bool) : (s.setIoerr b).cfg = s.cfg := rfl

/-! ### `State.compare` -/

@[simp] theorem State.compare_x (p q : Word) : (s.compare p q).x = s.x := rfl
@[simp] theorem State.compare_acc (p q : Word) : (s.compare p q).acc = s.acc := rfl
@[simp] theorem State.compare_jmp (p q : Word) : (s.compare p q).jmp = s.jmp := rfl
@[simp] theorem State.compare_ic (p q : Word) : (s.compare p q).ic = s.ic := rfl
@[simp] theorem State.compare_flagLt (p q : Word) : (s.compare p q).flagLt = decide (signed p < signed q) := rfl
@[simp] theorem State.compare_flagEq (p q : Word) : (s.compare p q).flagEq = decide (signed p = signed q) := rfl
@[simp] theorem State.compare_flagGt (p q : Word) : (s.compare p q).flagGt = decide (signed p > signed q) := rfl
@[simp] theorem State.compare_flagOvf (p q : Word) : (s.compare p q).flagOvf = s.flagOvf := rfl
@[simp] theorem State.compare_flagDbz (p q : Word) : (s.compare p q).flagDbz = s.flagDbz := rfl
@[simp] theorem State.compare_flagIoerr (p q : Word) : (s.compare p q).flagIoerr = s.flagIoerr := rfl
@[simp] theorem State.compare_run (p q : Word) : (s.compare p q).run = s.run := rfl
@[simp] theorem State.compare_cause (p q : Word) : (s.compare p q).cause = s.cause := rfl
@[simp] theorem State.compare_cstack (p q : Word) : (s.compare p q).cstack = s.cstack := rfl
@[simp] theorem State.compare_top (p q : Word) : (s.compare p q).top = s.top := rfl
@[simp] theorem State.compare_handle (p q : Word) : (s.compare p q).handle = s.handle := rfl
@[simp] theorem State.compare_mem (p q : Word) : (s.compare p q).mem = s.mem := rfl
@[simp] theorem State.compare_diag (p q : Word) : (s.compare p q).diag = s.diag := rfl
@[simp] theorem State.compare_conout (p q : Word) : (s.compare p q).conout = s.conout := rfl
@[simp] theorem State.compare_envLog (p q : Word) : (s.compare p q).envLog = s.envLog := rfl
@[simp] theorem State.compare_cfg (p q : Word) : (s.compare p q).cfg = s.cfg := rfl

/-! ### `State.branchIf` -/

@[simp] theorem State.branchIf_x (b : Bool) (a : Arg16) : (s.branchIf b a).x = s.x := rfl
@[simp] theorem State.branchIf_acc (b : Bool) (a : Arg16) : (s.branchIf b a).acc = s.acc := rfl
@[simp] theorem State.branchIf_jmp (b : Bool) (a : Arg16) : (s.branchIf b a).jmp = s.jmp := rfl
@[simp] theorem State.branchIf_ic (b : Bool) (a : Arg16) : (s.branchIf b a).ic = if b then beforeTarget a else s.ic := rfl
@[simp] theorem State.branchIf_flagLt (b : Bool) (a : Arg16) : (s.branchIf b a).flagLt = s.flagLt := rfl
@[simp] theorem State.branchIf_flagEq (b : Bool) (a : Arg16) : (s.branchIf b a).flagEq = s.flagEq := rfl
@[simp] theorem State.branchIf_flagGt (b : Bool) (a : Arg16) : (s.branchIf b a).flagGt = s.flagGt := rfl
@[simp] theorem State.branchIf_flagOvf (b : Bool) (a : Arg16) : (s.branchIf b a).flagOvf = s.flagOvf := rfl
@[simp] theorem State.branchIf_flagDbz (b : Bool) (a : Arg16) : (s.branchIf b a).flagDbz = s.flagDbz := rfl
@[simp] theorem State.branchIf_flagIoerr (b : Bool) (a : Arg16) : (s.branchIf b a).flagIoerr = s.flagIoerr := rfl
@[simp] theorem State.branchIf_run (b : Bool) (a : Arg16) : (s.branchIf b a).run = s.run := rfl
@[simp] theorem State.branchIf_cause (b : Bool) (a : Arg16) : (s.branchIf b a).cause = s.cause := rfl
@[simp] theorem State.branchIf_cstack (b : Bool) (a : Arg16) : (s.branchIf b a).cstack = s.cstack := rfl
@[simp] theorem State.branchIf_top (b : Bool) (a : Arg16) : (s.branchIf b a).top = s.top := rfl
@[simp] theorem State.branchIf_handle (b : Bool) (a : Arg16) : (s.branchIf b a).handle = s.handle := rfl
@[simp] theorem State.branchIf_mem (b : Bool) (a : Arg16) : (s.branchIf b a).mem = s.mem := rfl
@[simp] theorem State.branchIf_diag (b : Bool) (a : Arg16) : (s.branchIf b a).diag = s.diag := rfl
@[simp] theorem State.branchIf_conout (b : Bool) (a : Arg16) : (s.branchIf b a).conout = s.conout := rfl
@[simp] theorem State.branchIf_envLog (b : Bool) (a : Arg16) : (s.branchIf b a).envLog = s.envLog := rfl
@[simp] theorem State.branchIf_cfg (b : Bool) (a : Arg16) : (s.branchIf b a).cfg = s.cfg := rfl

/-! ### `State.linkAndGo` -/

@[simp] theorem State.linkAndGo_x (a : Arg16) : (s.linkAndGo a).x = s.x := rfl
@[simp] theorem State.linkAndGo_acc (a : Arg16) : (s.linkAndGo a).acc = s.acc := rfl
@[simp] theorem State.linkAndGo_jmp (a : Arg16) : (s.linkAndGo a).jmp = s.ic := rfl
@[simp] theorem State.linkAndGo_ic (a : Arg16) : (s.linkAndGo a).ic = beforeTarget a := rfl
@[simp] theorem State.linkAndGo_flagLt (a : Arg16) : (s.linkAndGo a).flagLt = s.flagLt := rfl
@[simp] theorem State.linkAndGo_flagEq (a : Arg16) : (s.linkAndGo a).flagEq = s.flagEq := rfl
@[simp] theorem State.linkAndGo_flagGt (a : Arg16) : (s.linkAndGo a).flagGt = s.flagGt := rfl
@[simp] theorem State.linkAndGo_flagOvf (a : Arg16) : (s.linkAndGo a).flagOvf = s.flagOvf := rfl
@[simp] theorem State.linkAndGo_flagDbz (a : Arg16) : (s.linkAndGo a).flagDbz = s.flagDbz := rfl
@[simp] theorem State.linkAndGo_flagIoerr (a : Arg16) : (s.linkAndGo a).flagIoerr = s.flagIoerr := rfl
@[simp] theorem State.linkAndGo_run (a : Arg16) : (s.linkAndGo a).run = s.run := rfl
@[simp] theorem State.linkAndGo_cause (a : Arg16) : (s.linkAndGo a).cause = s.cause := rfl
@[simp] theorem State.linkAndGo_cstack (a : Arg16) : (s.linkAndGo a).cstack = s.cstack := rfl
@[simp] theorem State.linkAndGo_top (a : Arg16) : (s.linkAndGo a).top = s.top := rfl
@[simp] theorem State.linkAndGo_handle (a : Arg16) : (s.linkAndGo a).handle = s.handle := rfl
@[simp] theorem State.linkAndGo_mem (a : Arg16) : (s.linkAndGo a).mem = s.mem := rfl
@[simp] theorem State.linkAndGo_diag (a : Arg16) : (s.linkAndGo a).diag = s.diag := rfl
@[simp] theorem State.linkAndGo_conout (a : Arg16) : (s.linkAndGo a).conout = s.conout := rfl
@[simp] theorem State.linkAndGo_envLog (a : Arg16) : (s.linkAndGo a).envLog = s.envLog := rfl
@[simp] theorem State.linkAndGo_cfg (a : Arg16) : (s.linkAndGo a).cfg = s.cfg := rfl

/-! ### `State.haltAs` -/

@[simp] theorem State.haltAs_x (r : RunState) : (s.haltAs r).x = s.x := rfl
@[simp] theorem State.haltAs_acc (r : RunState) : (s.haltAs r).acc = s.acc := rfl
@[simp] theorem State.haltAs_jmp (r : RunState) : (s.haltAs r).jmp = s.jmp := rfl
@[simp] theorem State.haltAs_ic (r : RunState) : (s.haltAs r).ic = s.ic := rfl
@[simp] theorem State.haltAs_flagLt (r : RunState) : (s.haltAs r).flagLt = s.flagLt := rfl
@[simp] theorem State.haltAs_flagEq (r : RunState) : (s.haltAs r).flagEq = s.flagEq := rfl
@[simp] theorem State.haltAs_flagGt (r : RunState) : (s.haltAs r).flagGt = s.flagGt := rfl
@[simp] theorem State.haltAs_flagOvf (r : RunState) : (s.haltAs r).flagOvf = s.flagOvf := rfl
@[simp] theorem State.haltAs_flagDbz (r : RunState) : (s.haltAs r).flagDbz = s.flagDbz := rfl
@[simp] theorem State.haltAs_flagIoerr (r : RunState) : (s.haltAs r).flagIoerr = s.flagIoerr := rfl
@[simp] theorem State.haltAs_run (r : RunState) : (s.haltAs r).run = r := rfl
@[simp] theorem State.haltAs_cause (r : RunState) : (s.haltAs r).cause = s.cause := rfl
@[simp] theorem State.haltAs_cstack (r : RunState) : (s.haltAs r).cstack = s.cstack := rfl
@[simp] theorem State.haltAs_top (r : RunState) : (s.haltAs r).top = s.top := rfl
@[simp] theorem State.haltAs_handle (r : RunState) : (s.haltAs r).handle = s.handle := rfl
@[simp] theorem State.haltAs_mem (r : RunState) : (s.haltAs r).mem = s.mem := rfl
@[simp] theorem State.haltAs_diag (r : RunState) : (s.haltAs r).diag = s.diag := rfl
@[simp] theorem State.haltAs_conout (r : RunState) : (s.haltAs r).conout = s.conout := rfl
@[simp] theorem State.haltAs_envLog (r : RunState) : (s.haltAs r).envLog = s.envLog := rfl
@[simp] theorem State.haltAs_cfg (r : RunState) : (s.haltAs r).cfg = s.cfg := rfl

/-! ### `State.put` -/

@[simp] theorem State.put_ic (p : Place) (v : Word) : (s.put p v).ic = s.ic := by cases p <;> rfl
@[simp] theorem State.put_flagLt (p : Place) (v : Word) : (s.put p v).flagLt = s.flagLt := by cases p <;> rfl
@[simp] theorem State.put_flagEq (p : Place) (v : Word) : (s.put p v).flagEq = s.flagEq := by cases p <;> rfl
@[simp] theorem State.put_flagGt (p : Place) (v : Word) : (s.put p v).flagGt = s.flagGt := by cases p <;> rfl
@[simp] theorem State.put_flagOvf (p : Place) (v : Word) : (s.put p v).flagOvf = s.flagOvf := by cases p <;> rfl
@[simp] theorem State.put_flagDbz (p : Place) (v : Word) : (s.put p v).flagDbz = s.flagDbz := by cases p <;> rfl
@[simp] theorem State.put_flagIoerr (p : Place) (v : Word) : (s.put p v).flagIoerr = s.flagIoerr := by cases p <;> rfl
@[simp] theorem State.put_run (p : Place) (v : Word) : (s.put p v).run = s.run := by cases p <;> rfl
@[simp] theorem State.put_cause (p : Place) (v : Word) : (s.put p v).cause = s.cause := by cases p <;> rfl
@[simp] theorem State.put_cstack (p : Place) (v : Word) : (s.put p v).cstack = s.cstack := by cases p <;> rfl
@[simp] theorem State.put_top (p : Place) (v : Word) : (s.put p v).top = s.top := by cases p <;> rfl
@[simp] theorem State.put_handle (p : Place) (v : Word) : (s.put p v).handle = s.handle := by cases p <;> rfl
@[simp] theorem State.put_mem (p : Place) (v : Word) : (s.put p v).mem = s.mem := by cases p <;> rfl
@[simp] theorem State.put_diag (p : Place) (v : Word) : (s.put p v).diag = s.diag := by cases p <;> rfl
@[simp] theorem State.put_conout (p : Place) (v : Word) : (s.put p v).conout = s.conout := by cases p <;> rfl
@[simp] theorem State.put_envLog (p : Place) (v : Word) : (s.put p v).envLog = s.envLog := by cases p <;> rfl
@[simp] theorem State.put_cfg (p : Place) (v : Word) : (s.put p v).cfg = s.cfg := by cases p <;> rfl
@[simp] theorem State.put_r_acc (n : RegNum) (v : Word) : (s.put (.r n) v).acc = s.acc := rfl
@[simp] theorem State.put_r_jmp (n : RegNum) (v : Word) : (s.put (.r n) v).jmp = s.jmp := rfl
@[simp] theorem State.put_r_x (n : RegNum) (v : Word) : (s.put (.r n) v).x = s.x.set n.toNat v := rfl
@[simp] theorem State.put_a_x (v : Word) : (s.put .a v).x = s.x := rfl
@[simp] theorem State.put_a_acc (v : Word) : (s.put .a v).acc = v := rfl
@[simp] theorem State.put_a_jmp (v : Word) : (s.put .a v).jmp = s.jmp := rfl
@[simp] theorem State.put_j_x (v : Word) : (s.put .j v).x = s.x := rfl
@[simp] theorem State.put_j_acc (v : Word) : (s.put .j v).acc = s.acc := rfl
@[simp] theorem State.put_j_jmp (v : Word) : (s.put .j v).jmp = v := rfl

/-! ### Reading a register operand -/

@[simp] theorem State.get_r (n : RegNum) : s.get (.r n) = s.readReg n := rfl
@[simp] theorem State.get_a : s.get .a = s.acc := rfl
@[simp] theorem State.get_j : s.get .j = s.jmp := rfl

/-! ### `State.sent` -/

@[simp] theorem State.sent_requests : s.sent.requests = s.envLog := rfl
@[simp] theorem State.sent_conout : s.sent.conout = s.conout := rfl
@[simp] theorem State.sent_diag : s.sent.diag = s.diag := rfl

end Sys2Proof.Machine
end

