-- ==== Sys2Proof/Laws/Ops.lean ====
section
/-!
SUPPORT. One lemma for each shared operation that says everything it can do: registers, memory accesses, the call stack, the
handle table, the engine's increment.
-/

namespace Sys2Proof.Machine

/-! ## Registers and handles -/

/-- A register after a register write. -/
theorem State.readReg_writeReg (s : State) (i n : RegNum) (v : Word) :
    (s.writeReg i v).readReg n = if n = i then v else s.readReg n := by
  unfold State.readReg
  simp only [State.writeReg_x]
  rw [Vector.getElem_set]
  by_cases h : n = i
  · simp [h]
  · have : i.toNat ≠ n.toNat := fun e => h (BitVec.eq_of_toNat_eq e.symm)
    simp [h, this]

/-- A general register depends on the register file alone. -/
theorem State.readReg_congr {s t : State} (h : t.x = s.x) (n : RegNum) : t.readReg n = s.readReg n := by
  simp only [State.readReg, h]

/-- A register operand after a write to it. -/
theorem State.get_put_same (s : State) (p : Place) (v : Word) : (s.put p v).get p = v := by
  cases p with
  | r n => simp [State.put, State.readReg_writeReg]
  | a => rfl
  | j => rfl

/-- A general register after a write to a register operand. -/
theorem State.readReg_put (s : State) (p : Place) (v : Word) (n : RegNum) :
    (s.put p v).readReg n = if p = .r n then v else s.readReg n := by
  cases p with
  | r i =>
    simp only [State.put, State.readReg_writeReg, Place.r.injEq]
    by_cases h : n = i
    · simp [h]
    · simp [h, Ne.symm h]
  | a => simp [State.put, State.readReg]
  | j => simp [State.put, State.readReg]

/-- A handle after a handle write. -/
theorem State.readHandle_writeHandle (s : State) (i n : Slot) (b : Bool) :
    (s.writeHandle i b).readHandle n = if n = i then b else s.readHandle n := by
  unfold State.readHandle
  simp only [State.writeHandle_handle]
  rw [Vector.getElem_set]
  by_cases h : n = i
  · simp [h]
  · have : i.toNat ≠ n.toNat := fun e => h (BitVec.eq_of_toNat_eq e.symm)
    simp [h, this]

/-! ## Memory accesses -/

/-- A word of memory exists exactly below `MEMSIZE`. -/
theorem State.memWord_of_lt {s : State} {a : Nat} (h : a < s.cfg.memSize) : s.memWord a = some (s.mem.read a) := by
  simp [State.memWord, h]

theorem State.memWord_of_ge {s : State} {a : Nat} (h : s.cfg.memSize ≤ a) : s.memWord a = none := by
  simp [State.memWord, Nat.not_lt.2 h]

/-- `MemRead` inside memory: the continuation on the word there. -/
theorem State.withMemRead_of_lt {s : State} {a : Nat} (h : a < s.cfg.memSize) (k : Word → State) :
    s.withMemRead a k = k (s.mem.read a) := by
  simp [State.withMemRead, State.memWord_of_lt h]

/-- `MemRead` outside memory: the abort and nothing else. -/
theorem State.withMemRead_of_ge {s : State} {a : Nat} (h : s.cfg.memSize ≤ a) (k : Word → State) :
    s.withMemRead a k = s.abort .dataOob := by
  simp [State.withMemRead, State.memWord_of_ge h]

/-- Everything a `MemRead` can do. -/
theorem State.withMemRead_cases (s : State) (a : Nat) (k : Word → State) :
    (a < s.cfg.memSize ∧ s.withMemRead a k = k (s.mem.read a)) ∨
      (s.cfg.memSize ≤ a ∧ s.withMemRead a k = s.abort .dataOob) := by
  rcases Nat.lt_or_ge a s.cfg.memSize with h | h
  · exact .inl ⟨h, State.withMemRead_of_lt h k⟩
  · exact .inr ⟨h, State.withMemRead_of_ge h k⟩

/-- `MemWrite` inside memory. -/
theorem State.memWrite_of_lt {s : State} {a : Nat} (h : a < s.cfg.memSize) (v : Word) :
    s.memWrite a v = { s with mem := s.mem.write a v } := by
  simp [State.memWrite, h]

/-- `MemWrite` outside memory: the abort and nothing else. -/
theorem State.memWrite_of_ge {s : State} {a : Nat} (h : s.cfg.memSize ≤ a) (v : Word) :
    s.memWrite a v = s.abort .dataOob := by
  simp [State.memWrite, Nat.not_lt.2 h]

/-- Everything a `MemWrite` can do. -/
theorem State.memWrite_cases (s : State) (a : Nat) (v : Word) :
    (a < s.cfg.memSize ∧ s.memWrite a v = { s with mem := s.mem.write a v }) ∨
      (s.cfg.memSize ≤ a ∧ s.memWrite a v = s.abort .dataOob) := by
  rcases Nat.lt_or_ge a s.cfg.memSize with h | h
  · exact .inl ⟨h, State.memWrite_of_lt h v⟩
  · exact .inr ⟨h, State.memWrite_of_ge h v⟩

/-! ## The call stack -/

/-- A push that succeeds: the stack had room, and exactly `cstack[top]` and `top` changed. -/
theorem State.push_some {s t : State} {v : Word} (h : s.push v = some t) :
    ∃ hlt : s.top.val < 100, t = { s with cstack := s.cstack.set s.top.val v, top := ⟨s.top.val + 1, by omega⟩ } := by
  unfold State.push at h
  split at h
  · next hlt => exact ⟨hlt, (Option.some.inj h).symm⟩
  · cases h

/-- A push fails exactly on a full stack. -/
theorem State.push_eq_none {s : State} {v : Word} : s.push v = none ↔ s.top.val = 100 := by
  unfold State.push
  split
  · next h => simp; omega
  · next h => simp; omega

/-- Everything a `CALL` can do. -/
theorem State.callTo_cases (s : State) (a : Arg16) :
    (s.jmp = 0 ∧ s.callTo a = s.linkAndGo a) ∨
      (s.jmp ≠ 0 ∧ ∃ t, s.push s.jmp = some t ∧ s.callTo a = t.linkAndGo a) ∨
      (s.jmp ≠ 0 ∧ s.top.val = 100 ∧ s.callTo a = s.abort .cstackOob) := by
  unfold State.callTo
  split
  · next h => exact .inl ⟨h, rfl⟩
  · next h =>
    cases hp : s.push s.jmp with
    | some t => exact .inr (.inl ⟨h, t, rfl, rfl⟩)
    | none => exact .inr (.inr ⟨h, State.push_eq_none.1 hp, rfl⟩)

/-- An `END` on an empty stack. -/
theorem State.returnFromCall_empty {s : State} (h : s.top.val = 0) :
    s.returnFromCall = { s with ic := s.jmp, jmp := s.cstack[0], cstack := s.cstack.set 0 0 } := by
  simp [State.returnFromCall, h]

/-- An `END` with an entry on the stack. -/
theorem State.returnFromCall_pop {s : State} (h : s.top.val ≠ 0) :
    s.returnFromCall =
      { s with
        ic := s.jmp
        jmp := s.cstack[s.top.val - 1]'(by omega)
        top := ⟨s.top.val - 1, by omega⟩ } := by
  simp [State.returnFromCall, State.pop, h]

/-! ## The engine -/

/-- Step 4 after a terminal event. -/
theorem State.advance_stopped {s : State} (h : s.run ≠ .running) : s.advance = s := by
  simp [State.advance, h]

/-- Step 4 inside memory. -/
theorem State.advance_running {s : State} (h : s.run = .running) (hlt : unsigned (s.ic + 1) < s.cfg.memSize) :
    s.advance = { s with ic := s.ic + 1 } := by
  unfold State.advance
  rw [if_pos h]
  exact if_neg (by omega)

/-- Step 4 past the end of memory. -/
theorem State.advance_outside {s : State} (h : s.run = .running) (hge : s.cfg.memSize ≤ unsigned (s.ic + 1)) :
    s.advance = { s with ic := s.ic + 1, run := .abortedOob, cause := .icOob } := by
  unfold State.advance
  rw [if_pos h]
  exact if_pos hge

/-- Everything step 4 can do. -/
theorem State.advance_cases (s : State) :
    (s.run ≠ .running ∧ s.advance = s) ∨
      (s.run = .running ∧ unsigned (s.ic + 1) < s.cfg.memSize ∧ s.advance = { s with ic := s.ic + 1 }) ∨
      (s.run = .running ∧ s.cfg.memSize ≤ unsigned (s.ic + 1) ∧
        s.advance = { s with ic := s.ic + 1, run := .abortedOob, cause := .icOob }) := by
  by_cases h : s.run = .running
  · rcases Nat.lt_or_ge (unsigned (s.ic + 1)) s.cfg.memSize with hl | hg
    · exact .inr (.inl ⟨h, hl, State.advance_running h hl⟩)
    · exact .inr (.inr ⟨h, hg, State.advance_outside h hg⟩)
  · exact .inl ⟨h, State.advance_stopped h⟩

end Sys2Proof.Machine
end

