-- ==== Sys2Proof/Laws/Step.lean ====
section
/-!
SUPPORT. What an instruction and a step can do, said once: every handler answers a next state, and a step that answers one is
either a cycle of a running core or no change at all.
-/

namespace Sys2Proof.Machine

/-- The state an instruction leaves: no handler faults or refuses. -/
theorem exec_isNext (i : Instr) (s : State) : ∃ t, exec i s = .next t := by
  cases i <;> exact ⟨_, rfl⟩

/-- The fetch of a running core reads the word at `ic`, where there is one. -/
theorem State.fetch_eq_some {s : State} {w : Word} :
    s.fetch = some w ↔ unsigned s.ic < s.cfg.memSize ∧ s.mem.read (unsigned s.ic) = w := by
  unfold State.fetch
  rcases Nat.lt_or_ge (unsigned s.ic) s.cfg.memSize with h | h
  · simp [State.memWord_of_lt h, h]
  · simp [State.memWord_of_ge h]
    omega

/-- What a cycle leaves after a word that decodes. -/
theorem State.runWord_ok {s t : State} {w : Word} {i : Instr} (hd : decode s.cfg.dispatch w = .ok i)
    (he : exec i s = .next t) : s.runWord w = .next t.advance := by
  simp [State.runWord, hd, he, thenAdvance]

/-- What a cycle leaves after a word with an unassigned opcode. -/
theorem State.runWord_error {s : State} {w : Word} {o : Opcode}
    (hd : decode s.cfg.dispatch w = .error (.unassignedOpcode o)) :
    s.runWord w = .next (s.report (.unknownOpcode o s.ic)).advance := by
  simp [State.runWord, hd, State.reportUnknown]

/-- A step of a running core, once its word is known. -/
theorem step_running {s : State} {w : Word} (hr : s.run = .running) (hf : s.fetch = some w) :
    step s = s.runWord w := by
  simp [step, hr, State.cycle, hf]

/-- A step in a terminal state. -/
theorem step_stopped {s : State} (h : s.run ≠ .running) : step s = .next s := by
  unfold step
  cases hr : s.run with
  | running => exact absurd hr h
  | haltedOk => rfl
  | haltedError => rfl
  | abortedOob => rfl

/-- Everything a step that answers a next state can be. -/
theorem step_cases {s u : State} (h : step s = .next u) :
    (s.run ≠ .running ∧ u = s) ∨
      (s.run = .running ∧ ∃ w, s.fetch = some w ∧
        ((∃ i t, decode s.cfg.dispatch w = .ok i ∧ exec i s = .next t ∧ u = t.advance) ∨
          (∃ o, decode s.cfg.dispatch w = .error (.unassignedOpcode o) ∧
            u = (s.report (.unknownOpcode o s.ic)).advance))) := by
  by_cases hr : s.run = .running
  · refine .inr ⟨hr, ?_⟩
    cases hf : s.fetch with
    | none => simp [step, hr, State.cycle, hf] at h
    | some w =>
      refine ⟨w, rfl, ?_⟩
      rw [step_running hr hf] at h
      cases hd : decode s.cfg.dispatch w with
      | ok i =>
        obtain ⟨t, ht⟩ := exec_isNext i s
        rw [State.runWord_ok hd ht] at h
        injection h with h
        exact .inl ⟨i, t, rfl, ht, h.symm⟩
      | error e =>
        cases e with
        | unassignedOpcode o =>
          rw [State.runWord_error hd] at h
          injection h with h
          exact .inr ⟨o, rfl, h.symm⟩
  · rw [step_stopped hr] at h
    injection h with h
    exact .inl ⟨hr, h.symm⟩

end Sys2Proof.Machine
end

