-- ==== Sys2Proof/Laws/Frame.lean ====
section
/-!
SUPPORT. Frames: how `OnlyChanges` is composed, and which parts each shared operation changes.
-/

namespace Sys2Proof.Machine

theorem StatePart.Same.refl (p : StatePart) (s : State) : p.Same s s := by cases p <;> rfl

theorem StatePart.Same.trans {p : StatePart} {s t u : State} (h₁ : p.Same s t) (h₂ : p.Same t u) : p.Same s u := by
  cases p <;> simp_all only [StatePart.Same]

theorem OnlyChanges.refl (ps : List StatePart) (s : State) : OnlyChanges ps s s := fun p _ => StatePart.Same.refl p s

theorem OnlyChanges.mono {ps qs : List StatePart} {s t : State} (h : OnlyChanges ps s t) (hs : ∀ p ∈ ps, p ∈ qs) :
    OnlyChanges qs s t := fun p hp => h p fun hm => hp (hs p hm)

/-- Two changes after each other change at most the parts of both. -/
theorem OnlyChanges.trans {ps qs : List StatePart} {s t u : State} (h₁ : OnlyChanges ps s t) (h₂ : OnlyChanges qs t u) :
    OnlyChanges (ps ++ qs) s u := fun p hp =>
  (h₁ p fun hm => hp (List.mem_append_left _ hm)).trans (h₂ p fun hm => hp (List.mem_append_right _ hm))

/-- The part a register operand is. -/
def Place.part : Place → StatePart
  | .r n => .reg n
  | .a => .acc
  | .j => .jmp

theorem State.put_changes (s : State) (p : Place) (v : Word) : OnlyChanges [p.part] s (s.put p v) := by
  intro q hq
  cases p <;> cases q <;> simp_all [StatePart.Same, Place.part, State.put, State.readReg_writeReg] <;> rfl

theorem State.abort_changes (s : State) (c : AbortCause) : OnlyChanges [.run, .cause] s (s.abort c) := by
  intro q hq
  cases q <;> simp_all [StatePart.Same] <;> rfl

theorem State.memWrite_changes {s : State} {a : Nat} (v : Word) (h : a < s.cfg.memSize) :
    OnlyChanges [.word a] s (s.memWrite a v) := by
  rw [State.memWrite_of_lt h]
  intro q hq
  cases q with
  | word b =>
    exact Memory.read_write_other _ _ (by simpa using hq)
  | _ => simp_all [StatePart.Same] <;> rfl

theorem State.setOvf_changes (s : State) (b : Bool) : OnlyChanges [.ovf] s (s.setOvf b) := by
  intro q hq
  cases q <;> simp_all [StatePart.Same] <;> rfl

theorem State.setDbz_changes (s : State) (b : Bool) : OnlyChanges [.dbz] s (s.setDbz b) := by
  intro q hq
  cases q <;> simp_all [StatePart.Same] <;> rfl

theorem State.setIoerr_changes (s : State) (b : Bool) : OnlyChanges [.ioerr] s (s.setIoerr b) := by
  intro q hq
  cases q <;> simp_all [StatePart.Same] <;> rfl

theorem State.compare_changes (s : State) (p q : Word) : OnlyChanges [.lt, .eq, .gt] s (s.compare p q) := by
  intro r hr
  cases r <;> simp_all [StatePart.Same] <;> rfl

theorem State.branchIf_changes (s : State) (b : Bool) (a : Arg16) : OnlyChanges [.ic] s (s.branchIf b a) := by
  intro r hr
  cases r <;> simp_all [StatePart.Same] <;> rfl

theorem State.haltAs_changes (s : State) (r : RunState) : OnlyChanges [.run] s (s.haltAs r) := by
  intro q hq
  cases q <;> simp_all [StatePart.Same] <;> rfl

theorem State.report_changes (s : State) (e : DiagEvent) : OnlyChanges [.diag] s (s.report e) := by
  intro q hq
  cases q <;> simp_all [StatePart.Same] <;> rfl

theorem State.conOut_changes (s : State) (f : Fmt) (w : Word) : OnlyChanges [.conout] s (s.conOut f w) := by
  intro q hq
  cases q <;> simp_all [StatePart.Same] <;> rfl

theorem State.ask_changes (s : State) (r : EnvRequest) : OnlyChanges [.env] s (s.ask r) := by
  intro q hq
  cases q <;> simp_all [StatePart.Same] <;> rfl

theorem State.writeHandle_changes (s : State) (n : Slot) (b : Bool) :
    OnlyChanges [.handle n] s (s.writeHandle n b) := by
  intro q hq
  cases q with
  | handle m => exact (State.readHandle_writeHandle s n m b).trans (if_neg (by simpa using hq))
  | _ => simp_all [StatePart.Same] <;> rfl

theorem State.linkAndGo_changes (s : State) (a : Arg16) : OnlyChanges [.jmp, .ic] s (s.linkAndGo a) := by
  intro q hq
  cases q <;> simp_all [StatePart.Same] <;> rfl

/-- A write of one call-stack slot changes that slot alone. -/
theorem cstack_set_changes (s : State) (k : Fin 100) (v : Word) :
    OnlyChanges [.slot k] s { s with cstack := s.cstack.set k.val v } := by
  intro q hq
  cases q with
  | slot j =>
    have hne : k.val ≠ j.val := fun e => hq (by simp [Fin.ext e])
    simp [StatePart.Same, hne]
  | _ => rfl

end Sys2Proof.Machine
end

