-- ==== Sys2Proof/Laws/Families.lean ====
section
/-!
SUPPORT. What each family's shared operation does, said once: the values it writes and the frame. The meanings of the
instructions are one call of these each, so a proof about an instruction cites the operation's lemma.
-/

namespace Sys2Proof.Machine

variable (s : State)

/-! ## Load and store -/

theorem State.load_inside (dst : Place) {a : Arg16} (h : dataAddress a < s.cfg.memSize) :
    s.load dst a = s.put dst (s.mem.read (dataAddress a)) :=
  State.withMemRead_of_lt h _

theorem State.load_outside (dst : Place) {a : Arg16} (h : s.cfg.memSize ≤ dataAddress a) :
    s.load dst a = s.abort .dataOob :=
  State.withMemRead_of_ge h _

theorem State.store_inside (src : Place) {a : Arg16} (h : dataAddress a < s.cfg.memSize) :
    s.store src a = { s with mem := s.mem.write (dataAddress a) (s.get src) } :=
  State.memWrite_of_lt h _

theorem State.store_outside (src : Place) {a : Arg16} (h : s.cfg.memSize ≤ dataAddress a) :
    s.store src a = s.abort .dataOob :=
  State.memWrite_of_ge h _

theorem State.store_changes (src : Place) {a : Arg16} (h : dataAddress a < s.cfg.memSize) :
    OnlyChanges [.word (dataAddress a)] s (s.store src a) :=
  State.memWrite_changes _ h

theorem State.compareMem_inside (p : Place) {a : Arg16} (h : dataAddress a < s.cfg.memSize) :
    s.compareMem p a = s.compare (s.get p) (s.mem.read (dataAddress a)) :=
  State.withMemRead_of_lt h _

theorem State.compareMem_outside (p : Place) {a : Arg16} (h : s.cfg.memSize ≤ dataAddress a) :
    s.compareMem p a = s.abort .dataOob :=
  State.withMemRead_of_ge h _

/-! ## Arithmetic -/

/-- A flag written and then `acc`: the frame of add, sub and mult. -/
theorem State.setOvf_put_changes (b : Bool) (v : Word) : OnlyChanges [.acc, .ovf] s ((s.setOvf b).put .a v) :=
  ((s.setOvf_changes b).trans (State.put_changes _ .a v)).mono (by simp [Place.part])

/-- A flag written and then `acc`: the frame of div and mod. -/
theorem State.setDbz_put_changes (b : Bool) (v : Word) : OnlyChanges [.acc, .dbz] s ((s.setDbz b).put .a v) :=
  ((s.setDbz_changes b).trans (State.put_changes _ .a v)).mono (by simp [Place.part])

theorem State.addOp_changes (p q : Place) : OnlyChanges [.acc, .ovf] s (s.addOp p q) := s.setOvf_put_changes _ _

theorem State.subOp_changes (p q : Place) : OnlyChanges [.acc, .ovf] s (s.subOp p q) := s.setOvf_put_changes _ _

theorem State.multOp_changes (p q : Place) : OnlyChanges [.acc, .ovf] s (s.multOp p q) := s.setOvf_put_changes _ _

/-- The overflow flag of a multiply, without the zero-operand case: that case is in range anyway (R132). -/
theorem multOverflow_eq (a b : Int) : multOverflow a b = outOfRange (a * b) := by
  unfold multOverflow
  split
  · next h => rcases h with rfl | rfl <;> simp [outOfRange]
  · rfl

theorem outOfRange_iff (z : Int) : outOfRange z = true ↔ z > 2147483647 ∨ z < -2147483648 := by
  simp [outOfRange]

/-- The signed value of `wrap32(z)` (R9). -/
theorem signed_wrap32 (z : Int) : signed (wrap32 z) = (z + 2147483648) % 4294967296 - 2147483648 := by
  simp only [signed, wrap32, BitVec.toInt_ofInt, Int.bmod]
  split <;> omega

theorem State.divideOp_zero (f : Int → Int → Int) (p q : Place) (h : s.get q = 0) :
    s.divideOp f p q = (s.setDbz true).put .a 0 := by
  simp [State.divideOp, h]

theorem State.divideOp_nonzero (f : Int → Int → Int) (p q : Place) (h : s.get q ≠ 0) :
    s.divideOp f p q = (s.setDbz false).put .a (wrap32 (f (signed (s.get p)) (signed (s.get q)))) := by
  have : signed (s.get q) ≠ 0 := fun e => h (BitVec.eq_of_toInt_eq (by simpa using e))
  simp [State.divideOp, this]

theorem State.divideOp_changes (f : Int → Int → Int) (p q : Place) :
    OnlyChanges [.acc, .dbz] s (s.divideOp f p q) := by
  by_cases h : s.get q = 0
  · rw [State.divideOp_zero _ _ _ _ h]
    exact s.setDbz_put_changes _ _
  · rw [State.divideOp_nonzero _ _ _ _ h]
    exact s.setDbz_put_changes _ _

/-! ## Console and disk -/

theorem State.consoleRead_changes (dst : Place) (f : Fmt) :
    OnlyChanges [dst.part, .ioerr, .env] s (s.consoleRead dst f) :=
  (((s.ask_changes _).trans (State.put_changes _ dst _)).trans (State.setIoerr_changes _ _)).mono
    (by simp)

theorem State.openHandle_changes (n : Slot) : OnlyChanges [.handle n, .ioerr, .env] s (s.openHandle n) :=
  (((s.ask_changes _).trans (State.writeHandle_changes _ n _)).trans (State.setIoerr_changes _ _)).mono
    (by simp)

theorem State.closeHandle_open {n : Slot} (h : s.readHandle n = true) :
    s.closeHandle n = (s.ask (.diskClose n)).writeHandle n false := by
  simp [State.closeHandle, h]

theorem State.closeHandle_closed {n : Slot} (h : s.readHandle n = false) : s.closeHandle n = s := by
  simp [State.closeHandle, h]

/-! ## Branches -/

/-- The increment after a taken branch lands on the target (R100, R190). -/
theorem beforeTarget_add_one (a : Arg16) : unsigned (beforeTarget a + 1) = a.toNat := by
  have := a.isLt
  have h : beforeTarget a + 1 = BitVec.ofInt 32 (a.toNat : Int) := by
    unfold beforeTarget wrap32
    rw [show (1 : Word) = BitVec.ofInt 32 1 from rfl, ← BitVec.ofInt_add]
    congr 1
    omega
  rw [h, BitVec.ofInt_natCast, unsigned, BitVec.toNat_ofNat]
  omega

end Sys2Proof.Machine
end

