-- ==== Sys2Proof/Tests/Slice0.lean ====
section
/-!
SUPPORT. Tests by evaluation. Expected values come from the spec: the row of `95_test_vectors.md` a test is taken from is named in
its comment (M for moves, A arithmetic, B bitwise, C compare, J branches, K calls, H halt and engine, W console, F disk, P
programs, S source examples), else the rule is. At the end stands, for every statement with hypotheses, a witness for them.
-/

namespace Sys2Proof.Tests

open Sys2Proof.Machine Sys2Proof.Claims

/-! ## Small states -/

/-- A state with a word placed at an address and the core about to fetch it. -/
def placed (s : State) (k : Nat) (w : Word) : State :=
  State.placeNext { s with ic := BitVec.ofNat 32 k } w

/-- Reset, with two general registers set. -/
def regs (i : RegNum) (v : Word) (j : RegNum) (w : Word) : State :=
  (State.reset.writeReg i v).writeReg j w

/-- Reset, with the accumulator, the link register and one general register set. -/
def alu (acc jmp : Word) (i : RegNum) (v : Word) : State :=
  { State.reset.writeReg i v with acc := acc, jmp := jmp }

/-- Reset, with the comparison flags set. -/
def flags (l e g : Bool) : State :=
  { State.reset with flagLt := l, flagEq := e, flagGt := g }

/-- Reset, with the three error flags set. -/
def errors (o d i : Bool) (s : State) : State :=
  { s with flagOvf := o, flagDbz := d, flagIoerr := i }

/-- Reset, with one word of memory set. -/
def cell (a : Nat) (v : Word) : State :=
  { State.reset with mem := State.reset.mem.write a v }

/-- A state with another memory size. -/
def sized (n : Nat) (s : State) : State :=
  { s with cfg := { s.cfg with memSize := n } }

/-- A state with the call stack's counter set. -/
def depth (n : Fin 101) (s : State) : State :=
  { s with top := n }

/-- The step answers a next state with a property. -/
def stepsTo (s : State) (p : State → Bool) : Bool :=
  match step s with
  | .next t => p t
  | .fault _ => false
  | .refused _ => false

/-! ## Well-formedness: what the checks refuse -/

theorem test_refuses_operation_without_row : (Instr.mov 1 2).wellFormed haltRows = false := by decide

theorem test_refuses_shadowed_row : (Instr.mov 1 2).wellFormed [(0x10#8, .add), (0x10#8, .mov)] = false := by decide

theorem test_refuses_fread_under_other_opcode : (Instr.fread 0xB3#8).wellFormed Dispatch.default = false := by decide

theorem test_refuses_fwrite_under_unassigned_opcode : (Instr.fwrite 0x00#8).wellFormed Dispatch.default = false := by decide

theorem test_accepts_instructions_of_the_table :
    (Instr.mov 1 2).wellFormed Dispatch.default = true ∧ (Instr.fread 0xB2#8).wellFormed Dispatch.default = true := by decide

/-! ## Decoding: every constructor from a word written out from its encoding (R74, R78, the examples of files 41 to 49) -/

theorem test_decodes_halt :
    decode Dispatch.default 0x01000000#32 = .ok .halt ∧
    decode Dispatch.default 0x02000000#32 = .ok .halte := by decide

theorem test_decodes_move :
    decode Dispatch.default 0x10530000#32 = .ok (.mov 5 3) ∧
    decode Dispatch.default 0x11200000#32 = .ok (.movra 2) ∧
    decode Dispatch.default 0x12700000#32 = .ok (.movar 7) ∧
    decode Dispatch.default 0x13100000#32 = .ok (.movrj 1) ∧
    decode Dispatch.default 0x14400000#32 = .ok (.movjr 4) ∧
    decode Dispatch.default 0x15000000#32 = .ok .movaj ∧
    decode Dispatch.default 0x16000000#32 = .ok .movja := by decide

theorem test_decodes_load_store :
    decode Dispatch.default 0x1890FFFF#32 = .ok (.ldi 9 0xFFFF) ∧
    decode Dispatch.default 0x190003E8#32 = .ok (.ldia 1000) ∧
    decode Dispatch.default 0x1A000000#32 = .ok (.ldij 0) ∧
    decode Dispatch.default 0x20100014#32 = .ok (.ld 1 20) ∧
    decode Dispatch.default 0x21000005#32 = .ok (.lda 5) ∧
    decode Dispatch.default 0x2200001E#32 = .ok (.ldj 30) ∧
    decode Dispatch.default 0x28200009#32 = .ok (.st 2 9) ∧
    decode Dispatch.default 0x29000064#32 = .ok (.sta 100) ∧
    decode Dispatch.default 0x2A0000C8#32 = .ok (.stj 200) := by decide

theorem test_decodes_add_sub_mult :
    decode Dispatch.default 0x30120000#32 = .ok (.add 1 2) ∧
    decode Dispatch.default 0x31200000#32 = .ok (.addar 2) ∧
    decode Dispatch.default 0x32000000#32 = .ok .addaj ∧
    decode Dispatch.default 0x34120000#32 = .ok (.sub 1 2) ∧
    decode Dispatch.default 0x35300000#32 = .ok (.subar 3) ∧
    decode Dispatch.default 0x36000000#32 = .ok .subaj ∧
    decode Dispatch.default 0x38120000#32 = .ok (.mult 1 2) ∧
    decode Dispatch.default 0x39100000#32 = .ok (.multar 1) ∧
    decode Dispatch.default 0x3A000000#32 = .ok .multaj := by decide

theorem test_decodes_div_mod :
    decode Dispatch.default 0x3C120000#32 = .ok (.div 1 2) ∧
    decode Dispatch.default 0x3D600000#32 = .ok (.divar 6) ∧
    decode Dispatch.default 0x3E000000#32 = .ok .divaj ∧
    decode Dispatch.default 0x40120000#32 = .ok (.mod 1 2) ∧
    decode Dispatch.default 0x41100000#32 = .ok (.modar 1) ∧
    decode Dispatch.default 0x42000000#32 = .ok .modaj := by decide

theorem test_decodes_bitwise :
    decode Dispatch.default 0x50120000#32 = .ok (.and 1 2) ∧
    decode Dispatch.default 0x51300000#32 = .ok (.andar 3) ∧
    decode Dispatch.default 0x52000000#32 = .ok .andaj ∧
    decode Dispatch.default 0x54120000#32 = .ok (.or 1 2) ∧
    decode Dispatch.default 0x55300000#32 = .ok (.orar 3) ∧
    decode Dispatch.default 0x56000000#32 = .ok .oraj ∧
    decode Dispatch.default 0x58200000#32 = .ok (.not 2) ∧
    decode Dispatch.default 0x59000000#32 = .ok .nota ∧
    decode Dispatch.default 0x5A000000#32 = .ok .notj := by decide

theorem test_decodes_shift :
    decode Dispatch.default 0x5C120000#32 = .ok (.shl 1 2) ∧
    decode Dispatch.default 0x5D400000#32 = .ok (.shlar 4) ∧
    decode Dispatch.default 0x5E000000#32 = .ok .shlaj ∧
    decode Dispatch.default 0x60120000#32 = .ok (.shr 1 2) ∧
    decode Dispatch.default 0x61100000#32 = .ok (.shrar 1) ∧
    decode Dispatch.default 0x62000000#32 = .ok .shraj := by decide

theorem test_decodes_compare :
    decode Dispatch.default 0x70120000#32 = .ok (.cmp 1 2) ∧
    decode Dispatch.default 0x71000000#32 = .ok (.cmpar 0) ∧
    decode Dispatch.default 0x72000000#32 = .ok .cmpaj ∧
    decode Dispatch.default 0x73300028#32 = .ok (.cmprm 3 40) ∧
    decode Dispatch.default 0x74000008#32 = .ok (.cmpam 8) := by decide

theorem test_decodes_branch :
    decode Dispatch.default 0x80000014#32 = .ok (.bran 20) ∧
    decode Dispatch.default 0x81000014#32 = .ok (.brlt 20) ∧
    decode Dispatch.default 0x82000014#32 = .ok (.breq 20) ∧
    decode Dispatch.default 0x83000014#32 = .ok (.brgt 20) ∧
    decode Dispatch.default 0x84000014#32 = .ok (.brle 20) ∧
    decode Dispatch.default 0x85000014#32 = .ok (.brge 20) ∧
    decode Dispatch.default 0x86000014#32 = .ok (.brgl 20) := by decide

theorem test_decodes_call :
    decode Dispatch.default 0x90000005#32 = .ok (.call 5) ∧
    decode Dispatch.default 0x91000000#32 = .ok .ret := by decide

theorem test_decodes_io :
    decode Dispatch.default 0xA0310000#32 = .ok (.wrw 3 1) ∧
    decode Dispatch.default 0xA1000000#32 = .ok (.wrwa 0) ∧
    decode Dispatch.default 0xA2200000#32 = .ok (.rdw 2 0) ∧
    decode Dispatch.default 0xA3010000#32 = .ok (.rdwa 1) ∧
    decode Dispatch.default 0xB0300000#32 = .ok (.openSlot 3) ∧
    decode Dispatch.default 0xB1300000#32 = .ok (.closeSlot 3) ∧
    decode Dispatch.default 0xB2000000#32 = .ok (.fread 0xB2) ∧
    decode Dispatch.default 0xB3000000#32 = .ok (.fwrite 0xB3) := by decide

/-- Fields a form ignores have no effect (R77; M22, J6, H9, W3). -/
theorem test_ignored_fields :
    decode Dispatch.default 0x1056FFFF#32 = .ok (.mov 5 6) ∧ decode Dispatch.default 0x80FF0003#32 = .ok (.bran 3) ∧
    decode Dispatch.default 0x01ABCDEF#32 = .ok .halt ∧ decode Dispatch.default 0xA0320000#32 = .ok (.wrw 3 0) := by decide

/-- Unassigned opcodes are rejected by name (R79). -/
theorem test_rejects_by_name :
    decode Dispatch.default 0x17000000#32 = .error (.unassignedOpcode 0x17) ∧
    decode Dispatch.default 0xFF123456#32 = .error (.unassignedOpcode 0xFF) := by decide

/-- The codec (S1, S2). -/
theorem test_codec :
    encodeInts 0x90 1 2 0xABCD = 0x9012ABCD#32 ∧ encodeInts 0x130 16 17 65541 = 0x30010005#32 ∧
    encodeInts (-1) (-1) (-1) (-1) = 0xFFFFFFFF#32 ∧ fieldsOf 0xDEADBEEF#32 = ⟨0xDE, 0xA, 0xD, 0xBEEF⟩ ∧
    patchArg3 0x9012ABCD#32 7 = 0x90120007#32 ∧ patchArg3 0x80000000#32 0x12345 = 0x80002345#32 ∧
    patchArg3 0x20100000#32 (-1) = 0x2010FFFF#32 := by decide

/-- The encoder writes the words of the spec's examples. -/
theorem test_encodes :
    encode Dispatch.default (.cmprm 3 40) = some 0x73300028#32 ∧ encode Dispatch.default (.wrw 3 1) = some 0xA0310000#32 ∧
    encode Dispatch.default (.fwrite 0xB3) = some 0xB3000000#32 ∧ encode haltRows (.mov 1 2) = none := by decide

/-- The table's bit numbering (S1). -/
theorem test_table_word : decodeTableWord 32 0x2070012C = some (.ld 7 300) ∧ decodeTableWord 32 0 = none := by decide

/-- An instruction placed where the next step fetches is the one it runs. -/
theorem test_with_fetch_word :
    stepsTo (State.reset.withFetchWord 32 0x18000007) (fun t => t.readReg 0 = 7 ∧ t.ic = 1) = true := by decide

/-! ## Steps -/

-- M1
theorem test_mov_copies :
    stepsTo (placed (regs 3 0xDEADBEEF 5 1) 6 0x10530000) (fun t =>
      t.readReg 5 = 0xDEADBEEF ∧ t.readReg 3 = 0xDEADBEEF ∧ t.ic = 7) = true := by decide

-- M3
theorem test_movra_takes_acc :
    stepsTo (placed (alu (-3) 0 2 0) 6 0x11200000) (fun t =>
      t.readReg 2 = 0xFFFFFFFD ∧ t.acc = -3) = true := by decide

-- M4
theorem test_movar_takes_register :
    stepsTo (placed (alu 0 0 7 41) 6 0x12700000) (fun t =>
      t.acc = 41 ∧ t.readReg 7 = 41) = true := by decide

-- M5
theorem test_movrj_takes_link :
    stepsTo (placed (alu 0 12 1 0) 6 0x13100000) (fun t =>
      t.readReg 1 = 12 ∧ t.jmp = 12) = true := by decide

-- M6
theorem test_movjr_writes_link :
    stepsTo (placed (depth 3 (alu 0 12 4 0)) 6 0x14400000) (fun t =>
      t.jmp = 0 ∧ t.top = 3) = true := by decide

-- M7
theorem test_movaj_copies :
    stepsTo (placed (alu 0 100 0 0) 6 0x15000000) (fun t =>
      t.acc = 100 ∧ t.jmp = 100) = true := by decide

-- M8
theorem test_movja_copies : stepsTo (placed (alu 9 0 0 0) 6 0x16000000) (fun t => t.jmp = 9 ∧ t.acc = 9) = true := by decide

-- M9
theorem test_ldi_zero_extends :
    stepsTo (placed (alu 0 0 9 (-1)) 6 0x1890FFFF) (fun t =>
      t.readReg 9 = 0x0000FFFF) = true := by decide

-- M10
theorem test_ldia_loads : stepsTo (placed State.reset 6 0x190003E8) (fun t => t.acc = 1000) = true := by decide

-- M11
theorem test_ldij_loads : stepsTo (placed (alu 0 5 0 0) 6 0x1A000000) (fun t => t.jmp = 0) = true := by decide

-- M12
theorem test_ld_loads :
    stepsTo (placed (cell 20 0x80000000) 6 0x20100014) (fun t =>
      t.readReg 1 = 0x80000000 ∧ t.ic = 7) = true := by decide

-- M13
theorem test_ld_outside_aborts :
    stepsTo (placed (alu 0 0 1 77) 6 0x20100400) (fun t =>
      t.run = .abortedOob ∧ t.cause = .dataOob ∧ t.readReg 1 = 77 ∧ t.ic = 6) = true := by decide

-- M15
theorem test_lda_loads : stepsTo (placed (cell 5 123) 6 0x21000005) (fun t => t.acc = 123) = true := by decide

-- M16
theorem test_ldj_loads : stepsTo (placed (cell 30 17) 6 0x2200001E) (fun t => t.jmp = 17) = true := by decide

-- M17
theorem test_st_stores :
    stepsTo (placed (alu 0 0 2 0x01000000) 6 0x28200009) (fun t =>
      t.mem.read 9 = 0x01000000 ∧ t.mem.read 8 = 0 ∧ t.mem.read 10 = 0) = true := by decide

-- M21
theorem test_sta_last_word :
    stepsTo (placed (sized 16 (alu 1 0 0 0)) 3 0x2900000F) (fun t =>
      t.mem.read 15 = 1 ∧ t.run = .running) = true := by decide

-- M20
theorem test_sta_outside_aborts :
    stepsTo (placed (sized 16 (alu 1 0 0 0)) 3 0x29000010) (fun t =>
      t.run = .abortedOob ∧ t.mem.read 16 = 0 ∧ t.ic = 3) = true := by decide

-- M19
theorem test_stj_stores : stepsTo (placed (alu 0 4 0 0) 6 0x2A0000C8) (fun t => t.mem.read 200 = 4) = true := by decide

-- A2
theorem test_add_overflows :
    stepsTo (placed (regs 1 0x7FFFFFFF 2 1) 6 0x30120000) (fun t =>
      t.acc = 0x80000000 ∧ t.flagOvf = true) = true := by decide

-- A49
theorem test_add_clears_overflow :
    stepsTo (placed (errors true true true (alu 0 0 3 21)) 6 0x30330000) (fun t =>
      t.acc = 42 ∧ t.flagOvf = false ∧ t.flagDbz = true ∧ t.flagIoerr = true) = true := by decide

-- A50
theorem test_addar_adds :
    stepsTo (placed (errors true false false (alu 10 0 2 (-4))) 6 0x31200000) (fun t =>
      t.acc = 6 ∧ t.flagOvf = false) = true := by decide

-- A51
theorem test_addaj_adds : stepsTo (placed (alu 1 12 0 0) 6 0x32000000) (fun t => t.acc = 13 ∧ t.jmp = 12) = true := by decide

-- A9
theorem test_sub_min_fits :
    stepsTo (placed (regs 1 (-1) 2 0x7FFFFFFF) 6 0x34120000) (fun t =>
      t.acc = 0x80000000 ∧ t.flagOvf = false) = true := by decide

-- A7
theorem test_sub_overflows :
    stepsTo (placed (regs 1 0 2 0x80000000) 6 0x34120000) (fun t =>
      t.acc = 0x80000000 ∧ t.flagOvf = true) = true := by decide

-- A52
theorem test_subar_subtracts :
    stepsTo (placed (alu 0x80000000 0 3 1) 6 0x35300000) (fun t =>
      t.acc = 0x7FFFFFFF ∧ t.flagOvf = true) = true := by decide

-- A53
theorem test_subaj_subtracts :
    stepsTo (placed (alu 20 5 0 0) 6 0x36000000) (fun t =>
      t.acc = 15 ∧ t.flagOvf = false) = true := by decide

-- A15
theorem test_mult_overflows :
    stepsTo (placed (regs 1 46341 2 46341) 6 0x38120000) (fun t =>
      t.acc = 0x80001219 ∧ t.flagOvf = true) = true := by decide

-- A18
theorem test_mult_min_fits :
    stepsTo (placed (regs 1 65536 2 (-32768)) 6 0x38120000) (fun t =>
      t.acc = 0x80000000 ∧ t.flagOvf = false) = true := by decide

-- A54
theorem test_multar_wraps :
    stepsTo (placed (alu 65536 0 1 65536) 6 0x39100000) (fun t =>
      t.acc = 0 ∧ t.flagOvf = true) = true := by decide

-- A55
theorem test_multaj_by_zero :
    stepsTo (placed (errors true false false (alu 3 0 0 0)) 6 0x3A000000) (fun t =>
      t.acc = 0 ∧ t.flagOvf = false) = true := by decide

-- A28
theorem test_div_truncates :
    stepsTo (placed (errors false true false (regs 1 (-7) 2 2)) 6 0x3C120000) (fun t =>
      t.acc = -3 ∧ t.flagDbz = false) = true := by decide

-- A34
theorem test_div_min_by_minus_one :
    stepsTo (placed (regs 1 0x80000000 2 (-1)) 6 0x3C120000) (fun t =>
      t.acc = 0x80000000 ∧ t.flagDbz = false ∧ t.flagOvf = false) = true := by decide

-- A56
theorem test_divar_by_zero :
    stepsTo (placed (errors true false false (alu 100 0 6 0)) 6 0x3D600000) (fun t =>
      t.acc = 0 ∧ t.flagDbz = true ∧ t.flagOvf = true) = true := by decide

-- A57
theorem test_divaj_by_zero :
    stepsTo (placed (alu 7 0 0 0) 6 0x3E000000) (fun t =>
      t.acc = 0 ∧ t.flagDbz = true) = true := by decide

-- A41
theorem test_mod_follows_dividend :
    stepsTo (placed (regs 1 (-7) 2 2) 6 0x40120000) (fun t =>
      t.acc = 0xFFFFFFFF ∧ t.flagDbz = false) = true := by decide

-- A42
theorem test_mod_positive_dividend : stepsTo (placed (regs 1 7 2 (-2)) 6 0x40120000) (fun t => t.acc = 1) = true := by decide

-- A58
theorem test_modar_divides :
    stepsTo (placed (errors false true false (alu 7 0 1 (-2))) 6 0x41100000) (fun t =>
      t.acc = 1 ∧ t.flagDbz = false) = true := by decide

-- A59
theorem test_modaj_divides :
    stepsTo (placed (errors false true false (alu 10 3 0 0)) 6 0x42000000) (fun t =>
      t.acc = 1 ∧ t.flagDbz = false) = true := by decide

-- B1
theorem test_and_bits :
    stepsTo (placed (regs 1 0xFFFF00FF 2 0x0FF0FF00) 6 0x50120000) (fun t =>
      t.acc = 0x0FF00000) = true := by decide

-- R159
theorem test_andar_bits :
    stepsTo (placed (alu 0x000000F0 0 3 0x0000003C) 6 0x51300000) (fun t =>
      t.acc = 0x00000030) = true := by decide

-- R160
theorem test_andaj_bits :
    stepsTo (placed (alu 0x000000F0 0x0000003C 0 0) 6 0x52000000) (fun t =>
      t.acc = 0x00000030) = true := by decide

-- B3
theorem test_or_bits :
    stepsTo (placed (regs 1 0xF0F00000 2 0x0F0F0000) 6 0x54120000) (fun t =>
      t.acc = 0xFFFF0000) = true := by decide

-- R162
theorem test_orar_bits :
    stepsTo (placed (alu 0x000000F0 0 3 0x0000003C) 6 0x55300000) (fun t =>
      t.acc = 0x000000FC) = true := by decide

-- R163
theorem test_oraj_bits :
    stepsTo (placed (alu 0x000000F0 0x0000003C 0 0) 6 0x56000000) (fun t =>
      t.acc = 0x000000FC) = true := by decide

-- B34
theorem test_not_bits :
    stepsTo (placed (regs 2 0 1 9) 6 0x58200000) (fun t =>
      t.acc = 0xFFFFFFFF ∧ t.readReg 2 = 0) = true := by decide

-- B7
theorem test_nota_bits : stepsTo (placed (alu 0x0F0F0F0F 0 0 0) 6 0x59000000) (fun t => t.acc = 0xF0F0F0F0) = true := by decide

-- B6
theorem test_notj_bits :
    stepsTo (placed (alu 0 0x80000000 0 0) 6 0x5A000000) (fun t =>
      t.acc = 0x7FFFFFFF ∧ t.jmp = 0x80000000) = true := by decide

-- B9
theorem test_shl_drops_bits :
    stepsTo (placed (regs 1 0xC0000001 2 1) 6 0x5C120000) (fun t =>
      t.acc = 0x80000002 ∧ t.flagOvf = false) = true := by decide

-- B11
theorem test_shl_amount_modulo : stepsTo (placed (regs 1 3 2 33) 6 0x5C120000) (fun t => t.acc = 6) = true := by decide

-- B30
theorem test_shlar_shifts : stepsTo (placed (alu 3 0 4 4) 6 0x5D400000) (fun t => t.acc = 48) = true := by decide

-- B31
theorem test_shlaj_shifts : stepsTo (placed (alu 1 8 0 0) 6 0x5E000000) (fun t => t.acc = 256) = true := by decide

-- B15
theorem test_shr_fills_with_sign :
    stepsTo (placed (regs 1 0x80000000 2 4) 6 0x60120000) (fun t =>
      t.acc = 0xF8000000) = true := by decide

-- B32
theorem test_shrar_rounds_down : stepsTo (placed (alu (-7) 0 1 1) 6 0x61100000) (fun t => t.acc = -4) = true := by decide

-- B33
theorem test_shraj_shifts : stepsTo (placed (alu 0x00010000 16 0 0) 6 0x62000000) (fun t => t.acc = 1) = true := by decide

-- C4
theorem test_cmp_is_signed :
    stepsTo (placed (regs 1 0xFFFFFFFF 2 0) 6 0x70120000) (fun t =>
      t.flagLt = true ∧ t.flagEq = false ∧ t.flagGt = false) = true := by decide

-- C6
theorem test_cmp_extremes :
    stepsTo (placed (regs 1 0x7FFFFFFF 2 0x80000000) 6 0x70120000) (fun t =>
      t.flagLt = false ∧ t.flagEq = false ∧ t.flagGt = true) = true := by decide

-- C8
theorem test_cmpar_equal :
    stepsTo (placed (alu 7 0 0 7) 6 0x71000000) (fun t =>
      t.flagLt = false ∧ t.flagEq = true ∧ t.flagGt = false) = true := by decide

-- C9
theorem test_cmpaj_greater :
    stepsTo (placed (alu 9 2 0 0) 6 0x72000000) (fun t =>
      t.flagLt = false ∧ t.flagEq = false ∧ t.flagGt = true) = true := by decide

-- C10
theorem test_cmprm_greater :
    stepsTo (placed ((cell 40 (-2)).writeReg 3 (-1)) 6 0x73300028) (fun t =>
      t.flagLt = false ∧ t.flagEq = false ∧ t.flagGt = true) = true := by decide

-- C11
theorem test_cmpam_equal :
    stepsTo (placed State.reset 6 0x74000008) (fun t =>
      t.flagEq = true ∧ t.flagLt = false ∧ t.flagGt = false) = true := by decide

-- C12
theorem test_cmpam_outside_aborts :
    stepsTo (placed (flags true false false) 4 0x740007D0) (fun t =>
      t.cause = .dataOob ∧ t.flagLt = true ∧ t.flagEq = false ∧ t.ic = 4) = true := by decide

-- J1
theorem test_bran_to_zero : stepsTo (placed State.reset 1 0x80000000) (fun t => t.ic = 0 ∧ t.run = .running) = true := by decide

-- J3
theorem test_bran_outside_aborts :
    stepsTo (placed State.reset 5 0x80000400) (fun t =>
      t.ic = 1024 ∧ t.run = .abortedOob ∧ t.cause = .icOob) = true := by decide

-- 2.5
theorem test_brlt_taken : stepsTo (placed (flags true false false) 5 0x81000014) (fun t => t.ic = 20) = true := by decide

-- J5
theorem test_brlt_untaken_target_unchecked :
    stepsTo (placed (flags false true false) 5 0x81000400) (fun t =>
      t.ic = 6 ∧ t.run = .running) = true := by decide

-- 2.5
theorem test_breq_taken : stepsTo (placed (flags false true false) 5 0x82000014) (fun t => t.ic = 20) = true := by decide

-- 2.5
theorem test_breq_untaken : stepsTo (placed (flags true false false) 5 0x82000014) (fun t => t.ic = 6) = true := by decide

-- 2.5
theorem test_brgt_taken : stepsTo (placed (flags false false true) 5 0x83000014) (fun t => t.ic = 20) = true := by decide

-- 2.5
theorem test_brgt_untaken : stepsTo (placed (flags false true false) 5 0x83000014) (fun t => t.ic = 6) = true := by decide

-- 2.5
theorem test_brle_taken : stepsTo (placed (flags false true false) 5 0x84000014) (fun t => t.ic = 20) = true := by decide

-- 2.5
theorem test_brle_untaken : stepsTo (placed (flags false false true) 5 0x84000014) (fun t => t.ic = 6) = true := by decide

-- S6
theorem test_brge_taken : stepsTo (placed (flags false true false) 5 0x85000007) (fun t => t.ic = 7) = true := by decide

-- S6
theorem test_brge_untaken : stepsTo (placed (flags true false false) 5 0x85000007) (fun t => t.ic = 6) = true := by decide

-- S7
theorem test_brgl_taken : stepsTo (placed (flags true false false) 5 0x86000002) (fun t => t.ic = 2) = true := by decide

-- S7
theorem test_brgl_untaken : stepsTo (placed (flags false true false) 5 0x86000002) (fun t => t.ic = 6) = true := by decide

-- K1
theorem test_call_outermost :
    stepsTo (placed State.reset 2 0x90000005) (fun t =>
      t.jmp = 2 ∧ t.top = 0 ∧ t.cstack = State.reset.cstack ∧ t.ic = 5) = true := by decide

-- K2
theorem test_call_pushes :
    stepsTo (placed (alu 0 2 0 0) 11 0x9000000E) (fun t =>
      t.cstack[0] = 2 ∧ t.top = 1 ∧ t.jmp = 11 ∧ t.ic = 14) = true := by decide

-- K3
theorem test_end_pops :
    stepsTo (placed (depth 1 { alu 0 11 0 0 with cstack := State.reset.cstack.set 0 2 }) 15 0x91000000) (fun t =>
      t.ic = 12 ∧ t.top = 0 ∧ t.jmp = 2 ∧ t.cstack[0] = 2) = true := by decide

-- K4
theorem test_end_empty_stack :
    stepsTo (placed ({ alu 0 2 0 0 with cstack := State.reset.cstack.set 0 2 }) 13 0x91000000) (fun t =>
      t.ic = 3 ∧ t.top = 0 ∧ t.jmp = 2 ∧ t.cstack[0] = 0) = true := by decide

-- H3
theorem test_halt_stops :
    stepsTo (placed State.reset 1023 0x01000000) (fun t =>
      t.run = .haltedOk ∧ t.ic = 1023 ∧ t.exitCode = some 0) = true := by decide

-- H2
theorem test_halte_stops :
    stepsTo (placed State.reset 3 0x02000000) (fun t =>
      t.run = .haltedError ∧ t.ic = 3 ∧ t.exitCode = some 2) = true := by decide

-- W2
theorem test_wrw_sends :
    stepsTo (placed (alu 0 0 3 42) 6 0xA0310000) (fun t =>
      t.conout = [⟨1, 42⟩] ∧ t.flagIoerr = false) = true := by decide

-- W4
theorem test_wrwa_sends :
    stepsTo (placed (errors false false true (alu (-3) 0 0 0)) 6 0xA1000000) (fun t =>
      t.conout = [⟨0, 0xFFFFFFFD⟩] ∧ t.flagIoerr = true) = true := by decide

-- F5
theorem test_close_open_slot :
    stepsTo (placed (errors false false true (State.reset.writeHandle 3 true)) 6 0xB1300000) (fun t =>
      t.readHandle 3 = false ∧ t.flagIoerr = true ∧ t.envLog = [.diskClose 3]) = true := by decide

-- F6
theorem test_close_closed_slot :
    stepsTo (placed State.reset 6 0xB1300000) (fun t =>
      t.readHandle 3 = false ∧ t.envLog = []) = true := by decide

-- F7
theorem test_fread_reports :
    stepsTo (placed State.reset 4 0xB2000000) (fun t =>
      t.diag = [.notImplemented 0xB2 4] ∧ t.ic = 5) = true := by decide

-- F8
theorem test_fwrite_reports :
    stepsTo (placed State.reset 9 0xB3000000) (fun t =>
      t.diag = [.notImplemented 0xB3 9] ∧ t.ic = 10) = true := by decide

-- H5
theorem test_unknown_opcode_reports :
    stepsTo (placed State.reset 4 0x00000000) (fun t =>
      t.diag = [.unknownOpcode 0 4] ∧ t.ic = 5 ∧ t.run = .running) = true := by decide

-- H7
theorem test_unknown_opcode_at_the_end :
    stepsTo (placed State.reset 1023 0x17000000) (fun t =>
      t.diag = [.unknownOpcode 0x17 1023] ∧ t.ic = 1024 ∧ t.cause = .icOob) = true := by decide

-- H4
theorem test_falls_off_the_end :
    stepsTo (placed State.reset 1023 0x10000000) (fun t =>
      t.ic = 1024 ∧ t.run = .abortedOob ∧ t.cause = .icOob ∧ t.exitCode = some 1) = true := by decide

-- K8
theorem test_call_full_stack_aborts :
    stepsTo (placed (depth 100 (alu 0 7 0 0)) 30 0x90000028) (fun t =>
      t.run = .abortedOob ∧ t.cause = .cstackOob ∧ t.jmp = 7 ∧ t.top = 100 ∧ t.ic = 30) = true := by decide

-- K7
theorem test_end_negative_link_aborts :
    stepsTo (placed (alu 0 (-5) 0 0) 6 0x91000000) (fun t =>
      t.ic = 0xFFFFFFFC ∧ t.run = .abortedOob ∧ t.cause = .icOob ∧ t.jmp = 0) = true := by decide

/-- A console read that fails (W6): the destination keeps its word. -/
theorem test_rdw_failure (h : (Config.conRead ⟨[], [], []⟩ 0).1 = false) :
    ∃ t, exec (.rdw 2 0) (alu 0 0 2 5) = .next t ∧ t.flagIoerr = true ∧ t.readReg 2 = 5 := by
  refine ⟨_, rfl, ?_, ?_⟩
  · show (!(Config.conRead ⟨[], [], []⟩ 0).1) = true
    rw [h]
    rfl
  · show ((alu 0 0 2 5).writeReg 2 (if (Config.conRead ⟨[], [], []⟩ 0).1 = true then _ else 5)).readReg 2 = 5
    rw [h]
    rfl

/-- A successful read into the accumulator (W7). -/
theorem test_rdwa_success (h : Config.conRead ⟨[], [], []⟩ 1 = (true, 0x00006968)) :
    ∃ t, exec (.rdwa 1) (alu 0 0 2 5) = .next t ∧ t.acc = 0x00006968 ∧ t.flagIoerr = false := by
  refine ⟨_, rfl, ?_, ?_⟩
  · show (if (Config.conRead ⟨[], [], []⟩ 1).1 = true then (Config.conRead ⟨[], [], []⟩ 1).2 else _) = _
    rw [h]
    rfl
  · show (!(Config.conRead ⟨[], [], []⟩ 1).1) = false
    rw [h]
    rfl

/-- An open that fails leaves an open slot open (F3). -/
theorem test_open_failure (h : Config.diskOpen ⟨[], [], []⟩ 3 = false) :
    ∃ t, exec (.openSlot 3) (State.reset.writeHandle 3 true) = .next t ∧ t.readHandle 3 = true ∧ t.flagIoerr = true := by
  refine ⟨_, rfl, ?_, ?_⟩
  · show (Config.diskOpen ⟨[], [], []⟩ 3 || true) = true
    rw [h]
    rfl
  · show (!(Config.diskOpen ⟨[], [], []⟩ 3)) = true
    rw [h]
    rfl

/-! ## Memory, reset and boot -/

/-- The canonical form at reset, and a write of 0 that removes an entry. -/
theorem test_memory_form :
    State.reset.mem.wf ∧ (Memory.write (Memory.write [] 5 7) 3 9) = [(3, 9), (5, 7)] ∧
    (Memory.write [(3, 9), (5, 7)] 5 0) = [(3, 9)] := by decide

/-- S11: the image, and 0 beyond it. -/
theorem test_boot :
    (boot (sized 8 State.reset).cfg [0x18000007, 0x01000000]).map
      (fun s => (s.mem, s.ic, s.run)) = some ([(0, 0x18000007), (1, 0x01000000)], 0, .running) := by decide

/-- R263: the byte order, a file of five bytes, an image longer than memory, parameters out of bounds. -/
theorem test_loader :
    imageOfBytes .little [7, 0, 0, 0x18] = some [0x18000007#32] ∧ imageOfBytes .big [7, 0, 0, 0x18] = some [0x07000018#32] ∧
    imageOfBytes .little [7, 0, 0, 0x18, 1] = none ∧ boot (sized 1 State.reset).cfg [1, 2] = none ∧
    boot (sized 0 State.reset).cfg [] = none ∧ boot (sized 2147483648 State.reset).cfg [] = none ∧
    boot { Config.default with abortExitCode := 2 } [] = none := by decide
/-! ## Witnesses: a state and operands that meet the hypotheses of each statement, at the boundary values of its clauses -/

/-- A running core about to run an instruction, in a form `decide` can check. -/
theorem fetches {s : State} {i : Instr} (w : Word) (hr : s.run = .running) (hf : s.fetch = some w)
    (hd : decode s.cfg.dispatch w = .ok i) : Fetches s i :=
  ⟨hr, w, hf, hd⟩

/-- UnassignedOpcodesRejectedByName: both sides of the limits of the blocks. -/
theorem witness_UnassignedOpcodesRejectedByName :
    (∀ o ∈ [0x00#8, 0x03#8, 0x0F#8, 0x17#8, 0x1B#8, 0x1F#8, 0x23#8, 0x27#8, 0x2B#8, 0x2F#8, 0x33#8, 0x37#8, 0x3B#8, 0x3F#8,
      0x43#8, 0x4F#8, 0x53#8, 0x57#8, 0x5B#8, 0x5F#8, 0x63#8, 0x6F#8, 0x75#8, 0x7F#8, 0x87#8, 0x8F#8, 0x92#8, 0x9F#8,
      0xA4#8, 0xAF#8, 0xB4#8, 0xFF#8], Dispatch.default.lookup o = none) ∧
    (∀ o ∈ [0x01#8, 0x02#8, 0x10#8, 0x16#8, 0x18#8, 0x1A#8, 0x20#8, 0x22#8, 0x28#8, 0x2A#8, 0x30#8, 0x32#8, 0x34#8, 0x36#8,
      0x38#8, 0x3A#8, 0x3C#8, 0x3E#8, 0x40#8, 0x42#8, 0x50#8, 0x52#8, 0x54#8, 0x56#8, 0x58#8, 0x5A#8, 0x5C#8, 0x5E#8,
      0x60#8, 0x62#8, 0x70#8, 0x74#8, 0x80#8, 0x86#8, 0x90#8, 0x91#8, 0xA0#8, 0xA3#8, 0xB0#8, 0xB3#8],
      Dispatch.default.lookup o ≠ none) := by decide

/-- EncodedInstructionsDecode: an operand at its last value; a table where two opcodes select one stub. -/
theorem witness_EncodedInstructionsDecode :
    (Instr.cmprm 15 0xFFFF).wellFormed Dispatch.default = true ∧
    (Instr.fread 0x20#8).wellFormed [(0x10#8, .fread), (0x20#8, .fread)] = true := by decide

/-- DecodedWordsReencode: a word with junk in its ignored field. -/
theorem witness_DecodedWordsReencode : decode Dispatch.default 0x1056FFFF#32 = .ok (.mov 5 6) := by decide

/-- R77, R83: encoding what that word decodes to clears the junk and keeps the operands. -/
theorem test_encoding_clears_ignored_fields : encode Dispatch.default (.mov 5 6) = some 0x10560000#32 := by decide

/-- StepRunsTheDecodedInstruction: the core stops; `ic + 1` is the last word of memory; `ic + 1` is the first address outside; an
unknown opcode. -/
theorem witness_StepRunsTheDecodedInstruction :
    (let s := placed State.reset 1023 0x01000000; s.run = .running ∧ s.fetch = some 0x01000000#32) ∧
    (let s := placed State.reset 1022 0x10000000; s.run = .running ∧ s.fetch = some 0x10000000#32) ∧
    (let s := placed State.reset 1023 0x10000000; s.run = .running ∧ s.fetch = some 0x10000000#32) ∧
    State.reset.run = .running ∧ State.reset.fetch = some 0 := by decide

/-- UnknownOpcodeIsReportedNoOp: the next word is the last of memory; the next word is outside. -/
theorem witness_UnknownOpcodeIsReportedNoOp :
    (let s := placed State.reset 1022 0x17000000
     s.run = .running ∧ s.fetch = some 0x17000000#32 ∧ s.cfg.dispatch.lookup (fieldsOf 0x17000000).op = none ∧
      nextAddress s = 1023) ∧
    (let s := placed State.reset 1023 0x17000000
     s.run = .running ∧ s.fetch = some 0x17000000#32 ∧ nextAddress s = s.cfg.memSize) := by decide

/-- TerminalStatesAreFinal: each of the three terminal states. -/
theorem witness_TerminalStatesAreFinal :
    (State.reset.haltAs .haltedOk).run ≠ .running ∧ (State.reset.haltAs .haltedError).run ≠ .running ∧
    (State.reset.abort .icOob).run ≠ .running := by decide

/-- StoredWordIsFetchedNext: the store to the next word, which is the last of memory. -/
theorem witness_StoredWordIsFetchedNext :
    Fetches (placed State.reset 1022 0x282003FF) (.st 2 1023) ∧
    (1023#16).toNat = nextAddress (placed State.reset 1022 0x282003FF) ∧
    (1023#16).toNat < (placed State.reset 1022 0x282003FF).cfg.memSize :=
  ⟨fetches 0x282003FF (by decide) (by decide) (by decide), by decide, by decide⟩

/-- OnlyTransfersWriteTheCounter: an instruction that transfers nothing, a step that leaves the core running, a branch, a call
with an empty link and one with one free slot, a branch that is taken and one that is not, a return. -/
theorem witness_OnlyTransfersWriteTheCounter :
    ((∃ t, exec (.add 1 2) State.reset = .next t) ∧ isTransfer (.add 1 2) = false) ∧
    (Fetches (placed State.reset 1022 0x10000000) (.mov 0 0) ∧
      (∃ t, exec (.mov 0 0) (placed State.reset 1022 0x10000000) = .next t) ∧
      stepsTo (placed State.reset 1022 0x10000000) (fun u => u.run = .running) = true) ∧
    (∃ t, exec (.bran 0) State.reset = .next t) ∧
    ((∃ t, exec (.call 0xFFFF) State.reset = .next t) ∧ State.reset.jmp = 0) ∧
    ((∃ t, exec (.call 0) (depth 99 (alu 0 7 0 0)) = .next t) ∧ (depth 99 (alu 0 7 0 0)).top.val < 100) ∧
    ((∃ t, exec (.brlt 5) (flags true false false) = .next t) ∧ (∃ t, exec (.brgl 5) State.reset = .next t) ∧
      (Instr.brlt 5, true) ∈ [(Instr.brlt 5, (flags true false false).flagLt)]) ∧ (∃ t, exec .ret State.reset = .next t) ∧
    (∃ t, exec .ret { State.reset with ic := 9 } = .next t) :=
  ⟨⟨⟨_, rfl⟩, by decide⟩, ⟨fetches 0x10000000 (by decide) (by decide) (by decide), ⟨_, rfl⟩, by decide⟩, ⟨_, rfl⟩,
    ⟨⟨_, rfl⟩, rfl⟩, ⟨⟨_, rfl⟩, by decide⟩, ⟨⟨_, rfl⟩, ⟨_, rfl⟩, by decide⟩, ⟨_, rfl⟩, ⟨_, rfl⟩⟩

/-- MovesCopyOneWord and CompareSetsExactlyOneFlag: the last address inside memory, the first outside. -/
theorem witness_MovesCopyOneWord_CompareSetsExactlyOneFlag :
    (1023#16).toNat < State.reset.cfg.memSize ∧ State.reset.cfg.memSize ≤ (1024#16).toNat := by decide

/-- LoadAfterStoreReturnsTheWord: the same address, and another, both at the end of memory. -/
theorem witness_LoadAfterStoreReturnsTheWord :
    (∃ t u, exec (.st 1 1023) State.reset = .next t ∧ exec (.ld 2 1023) t = .next u) ∧
    (∃ t u, exec (.st 1 1023) State.reset = .next t ∧ exec (.ld 2 1022) t = .next u) ∧
    (1023#16).toNat < State.reset.cfg.memSize ∧ (1022#16).toNat < State.reset.cfg.memSize :=
  ⟨⟨_, _, rfl, rfl⟩, ⟨_, _, rfl, rfl⟩, by decide, by decide⟩

/-- MultiplyOverflowIsExact, DivisionTruncates, OnlyMinByMinusOneWraps: a zero operand, another, the pair that wraps. -/
theorem witness_ArithmeticClauses :
    State.reset.readReg 2 = 0 ∧ (regs 1 0x80000000 2 1).readReg 2 ≠ 0 ∧
    (signed ((regs 1 0x80000000 2 (-1)).readReg 1) = -2147483648 ∧ signed ((regs 1 0x80000000 2 (-1)).readReg 2) = -1) ∧
    ¬(signed ((regs 1 0x80000000 2 1).readReg 1) = -2147483648 ∧ signed ((regs 1 0x80000000 2 1).readReg 2) = -1) := by
  decide

/-- BitwiseWritesOnlyTheAccumulator: two different states that agree on the operands. -/
theorem witness_BitwiseWritesOnlyTheAccumulator :
    (let s := regs 1 5 2 6; let s' := { regs 1 5 2 6 with ic := 9 }
     s ≠ s' ∧ s.readReg 1 = s'.readReg 1 ∧ s.readReg 2 = s'.readReg 2 ∧ s.acc = s'.acc ∧ s.jmp = s'.jmp) := by decide

/-- ComparisonFlagsOwnership: a run of one step from reset, of a word that is no compare; an instruction that is no compare, with flags of either value; a compare of a
running core that stays running; an instruction that is no conditional branch. -/
theorem witness_ComparisonFlagsOwnership :
    (Booted State.reset ∧ (∃ t, Host.Core.run Sys2Proof.core 1 State.reset = .next t) ∧
      ∀ k < 1, ∀ (u : State) (i : Instr), Host.Core.run Sys2Proof.core k State.reset = .next u → Fetches u i →
        isCompare i = false) ∧
    ((∃ t, exec (.add 1 2) (flags true false false) = .next t) ∧ isCompare (.add 1 2) = false) ∧
    ((∃ t, exec (.cmpam 1023) State.reset = .next t ∧ t.run = .running) ∧ isCompare (.cmpam 1023) = true) ∧
    ((∃ t, exec (.bran 3) State.reset = .next t) ∧ (∃ t, exec (.bran 3) (flags false true false) = .next t) ∧
      isConditionalBranch (.bran 3) = false) :=
  ⟨⟨⟨Config.default, [], by decide⟩, ⟨_, rfl⟩, by
    rintro k hk u i hu ⟨-, w, hw, hi⟩
    have hk : k = 0 := by omega
    subst hk
    have hu : State.reset = u := by injection hu
    subst hu
    rw [State.fetch_eq_some] at hw
    rw [← hw.2, show decode State.reset.cfg.dispatch (State.reset.mem.read (unsigned State.reset.ic)) = .error
      (.unassignedOpcode 0) by decide] at hi
    cases hi⟩,
    ⟨⟨_, rfl⟩, by decide⟩, ⟨⟨_, rfl, by decide⟩, by decide⟩, ⟨_, rfl⟩, ⟨_, rfl⟩, by decide⟩

/-- ErrorFlagsAreAdvisory: an instruction that writes none of the flags; the steps of two states that differ in them. -/
theorem witness_ErrorFlagsAreAdvisory :
    ((∃ t, exec (.mov 1 2) State.reset = .next t) ∧ writesOverflow (.mov 1 2) = false ∧
      writesDivideByZero (.mov 1 2) = false ∧ writesIoError (.mov 1 2) = false) ∧
    stepsTo (placed State.reset 5 0x85000007) (fun _ => true) = true ∧
    stepsTo (errors true true true (placed State.reset 5 0x85000007)) (fun _ => true) = true :=
  ⟨⟨⟨_, rfl⟩, by decide, by decide, by decide⟩, by decide, by decide⟩

/-- The branch statements: each branch is fetched, where its condition holds and where it does not, with a target that is the
last word of memory and one outside. -/
theorem witness_Branches :
    Fetches (placed State.reset 5 0x800003FF) (.bran 1023) ∧ Fetches (placed State.reset 5 0x80000400) (.bran 1024) ∧
    Fetches (placed (flags false true false) 5 0x85000007) (.brge 7) ∧
    Fetches (placed (flags true false false) 5 0x85000007) (.brge 7) ∧
    Fetches (placed (flags true false false) 5 0x86000002) (.brgl 2) ∧
    Fetches (placed (flags false true false) 1023 0x86000002) (.brgl 2) ∧
    Fetches (placed (flags true false false) 5 0x81000014) (.brlt 20) ∧
    Fetches (placed (flags false true false) 5 0x82000014) (.breq 20) ∧
    Fetches (placed (flags false false true) 5 0x83000014) (.brgt 20) ∧
    Fetches (placed State.reset 1022 0x84000014) (.brle 20) :=
  ⟨fetches 0x800003FF (by decide) (by decide) (by decide), fetches 0x80000400 (by decide) (by decide) (by decide),
    fetches 0x85000007 (by decide) (by decide) (by decide), fetches 0x85000007 (by decide) (by decide) (by decide),
    fetches 0x86000002 (by decide) (by decide) (by decide), fetches 0x86000002 (by decide) (by decide) (by decide),
    fetches 0x81000014 (by decide) (by decide) (by decide), fetches 0x82000014 (by decide) (by decide) (by decide),
    fetches 0x83000014 (by decide) (by decide) (by decide), fetches 0x84000014 (by decide) (by decide) (by decide)⟩

/-- BranchGreaterOrLess: a compare that leaves the core running. -/
theorem witness_BranchGreaterOrLess_after_compare :
    isCompare (.cmprm 1 1023) = true ∧ State.reset.run = .running ∧
    ∃ t, exec (.cmprm 1 1023) State.reset = .next t ∧ t.run = .running :=
  ⟨by decide, rfl, _, rfl, by decide⟩

/-- CallLinksAndPushes: an empty link with a full stack; a push onto the last free slot; a full stack; each is fetched, with a
target inside memory and one outside. -/
theorem witness_CallLinksAndPushes :
    (depth 100 State.reset).jmp = 0 ∧ ((depth 99 (alu 0 7 0 0)).top.val < 100 ∧ (depth 99 (alu 0 7 0 0)).jmp ≠ 0) ∧
    ((depth 100 (alu 0 7 0 0)).jmp ≠ 0 ∧ (depth 100 (alu 0 7 0 0)).top.val = 100) ∧
    Fetches (placed (depth 100 State.reset) 2 0x900003FF) (.call 1023) ∧
    Fetches (placed (depth 99 (alu 0 7 0 0)) 2 0x90000400) (.call 1024) ∧
    Fetches (placed (depth 100 (alu 0 7 0 0)) 2 0x90000400) (.call 1024) :=
  ⟨by decide, by decide, by decide, fetches 0x900003FF (by decide) (by decide) (by decide),
    fetches 0x90000400 (by decide) (by decide) (by decide), fetches 0x90000400 (by decide) (by decide) (by decide)⟩

/-- EndReturnsAndRestoresTheLink: an empty stack; a full one; each is fetched, with a link inside memory and one outside. -/
theorem witness_EndReturnsAndRestoresTheLink :
    State.reset.top.val = 0 ∧ (depth 100 State.reset).top.val = (99 : Fin 100).val + 1 ∧
    Fetches (placed (alu 0 1022 0 0) 2 0x91000000) .ret ∧ Fetches (placed (depth 100 (alu 0 1023 0 0)) 2 0x91000000) .ret :=
  ⟨by decide, by decide, fetches 0x91000000 (by decide) (by decide) (by decide),
    fetches 0x91000000 (by decide) (by decide) (by decide)⟩

/-- ReturnUndoesItsCall: an outermost call, and one that takes the last free slot, each undone at once. -/
theorem witness_ReturnUndoesItsCall :
    ((State.reset.jmp = 0 → State.reset.top.val = 0) ∧
      ∃ t u, exec (.call 5) State.reset = .next t ∧ exec .ret t = .next u) ∧
    ((depth 99 (alu 0 7 0 0)).jmp ≠ 0 ∧ (depth 99 (alu 0 7 0 0)).top.val < 100 ∧
      ∃ t u, exec (.call 5) (depth 99 (alu 0 7 0 0)) = .next t ∧ exec .ret t = .next u) :=
  ⟨⟨fun _ => by decide, _, _, rfl, rfl⟩, by decide, by decide, _, _, rfl, rfl⟩

/-- NestingCapacity: 101 and 102 calls from a reset core. -/
theorem witness_NestingCapacity :
    State.reset.run = .running ∧ State.reset.jmp = 0 ∧ State.reset.top.val = 0 ∧
    (∀ n, ∀ w ∈ List.replicate n (1 : Word), w ≠ 0) ∧ (List.replicate 101 (1 : Word)).length ≤ 101 ∧
    (List.replicate 102 (1 : Word)).length = 102 :=
  ⟨rfl, rfl, rfl, fun _ _ h => by rw [List.eq_of_mem_replicate h]; decide, by simp, by simp⟩

/-- CallStackOwnership: an instruction that is neither `CALL` nor `END`; a `CALL`; an `END`; and the first two over another stack. -/
theorem witness_CallStackOwnership :
    ((∃ t, exec (.mov 1 2) State.reset = .next t) ∧ (∀ a, Instr.mov 1 2 ≠ .call a) ∧ Instr.mov 1 2 ≠ .ret) ∧
    (∃ t, exec (.call 5) (alu 0 7 0 0) = .next t) ∧ (∃ t, exec .ret State.reset = .next t) ∧
    (∃ t, exec (.call 5) { alu 0 7 0 0 with cstack := Vector.replicate 100 9 } = .next t) ∧
    (∃ t, exec (.mov 1 2) { State.reset with cstack := Vector.replicate 100 9, top := 100 } = .next t) :=
  ⟨⟨⟨_, rfl⟩, fun _ => nofun, nofun⟩, ⟨_, rfl⟩, ⟨_, rfl⟩, ⟨_, rfl⟩, ⟨_, rfl⟩⟩

/-- HaltStopsAtItsOwnAddress: both halts are fetched, the first in the last word of memory. -/
theorem witness_HaltStopsAtItsOwnAddress :
    Fetches (placed State.reset 1023 0x01000000) .halt ∧ Fetches (placed State.reset 3 0x02000000) .halte :=
  ⟨fetches 0x01000000 (by decide) (by decide) (by decide), fetches 0x02000000 (by decide) (by decide) (by decide)⟩

/-- The zero word has an unassigned opcode (R79). -/
theorem zero_word_rejected : decode Dispatch.default 0 = .error (.unassignedOpcode 0) := by decide

/-- What a core with empty memory reaches has empty memory. -/
theorem empty_memory_stays {s t : State} (hm : s.mem = []) (hd : s.cfg.dispatch = Dispatch.default) (h : Reaches s t) :
    t.mem = [] ∧ t.cfg.dispatch = Dispatch.default := by
  induction h with
  | refl => exact ⟨hm, hd⟩
  | @tail t u _ hs ih =>
    rcases step_cases hs with ⟨-, rfl⟩ | ⟨-, w, hw, ⟨i, v, hi, -, -⟩ | ⟨o, -, rfl⟩⟩
    · exact ih
    · exfalso
      rw [State.fetch_eq_some, ih.1] at hw
      rw [← hw.2, ih.2, Memory.read_nil, zero_word_rejected] at hi
      cases hi
    · rcases State.advance_cases (t.report (.unknownOpcode o t.ic)) with ⟨-, e⟩ | ⟨-, -, e⟩ | ⟨-, -, e⟩ <;> rw [e] <;> exact ih

/-- OnlyHaltsTerminateSoftly: a step of each kind of halt, and a run that fetches none (a core with empty memory). -/
theorem witness_OnlyHaltsTerminateSoftly :
    (stepsTo (placed State.reset 3 0x01000000) (fun u => u.run = .haltedOk) = true) ∧
    (stepsTo (placed State.reset 3 0x02000000) (fun u => u.run = .haltedError) = true) ∧
    (State.reset.run = .running ∧ Reaches State.reset State.reset ∧
      ∀ t, Reaches State.reset t → ¬Fetches t .halt ∧ ¬Fetches t .halte) := by
  refine ⟨by decide, by decide, rfl, .refl, fun t ht => ?_⟩
  obtain ⟨hm, hd⟩ := empty_memory_stays rfl rfl ht
  have key : ∀ i, ¬Fetches t i := by
    rintro i ⟨-, w, hw, hi⟩
    rw [State.fetch_eq_some, hm] at hw
    rw [← hw.2, hd, Memory.read_nil, zero_word_rejected] at hi
    cases hi
  exact ⟨key _, key _⟩

/-- AbortsExactlyWhenOutOfBounds and HandlerAbortsArePrecise: a step that ends in each cause, at the first address outside
memory, and one inside that does not. -/
theorem witness_Aborts :
    (let s := placed State.reset 6 0x20100400
     s.run = .running ∧ s.cause = .none ∧ stepsTo s (fun u => u.cause = .dataOob) = true) ∧
    (let s := placed State.reset 6 0x201003FF
     s.run = .running ∧ s.cause = .none ∧ stepsTo s (fun u => u.cause = .none) = true) ∧
    (let s := placed (depth 100 (alu 0 7 0 0)) 30 0x90000028
     s.run = .running ∧ s.cause = .none ∧ stepsTo s (fun u => u.cause = .cstackOob) = true) ∧
    (let s := placed (depth 99 (alu 0 7 0 0)) 30 0x90000028
     s.run = .running ∧ s.cause = .none ∧ stepsTo s (fun u => u.cause = .none) = true) ∧
    (let s := placed State.reset 1023 0x10000000
     s.run = .running ∧ s.cause = .none ∧ stepsTo s (fun u => u.cause = .icOob) = true) := by decide

/-- ExitCodesDistinguishOutcomes: each of the four run states; a step that ends in the abort, with the default, a large
and a negative exit code for it; two different states of one outcome. -/
theorem witness_ExitCodesDistinguishOutcomes :
    (State.reset.run = .running ∧ (State.reset.haltAs .haltedOk).run = .haltedOk ∧
      (State.reset.haltAs .haltedError).run = .haltedError ∧ (State.reset.abort .dataOob).run = .abortedOob) ∧
    stepsTo (placed State.reset 1023 0x10000000) (fun u => u.run = .abortedOob) = true ∧
    stepsTo (placed { State.reset with cfg := { Config.default with abortExitCode := 255 } } 6 0x20100400)
      (fun u => u.run = .abortedOob) = true ∧
    stepsTo (placed { State.reset with cfg := { Config.default with abortExitCode := -1 } } 6 0x20100400)
      (fun u => u.run = .abortedOob) = true ∧
    (State.reset.cfg.wf ∧ (flags true false false).cfg = State.reset.cfg ∧
      State.reset.exitCode = (flags true false false).exitCode) := by decide

/-- R35: the exit code of an abort is the parameter, not its default. -/
theorem test_abort_exit_code_is_the_parameter :
    stepsTo (placed { State.reset with cfg := { Config.default with abortExitCode := 255 } } 6 0x20100400)
      (fun u => u.exitCode = some 255 ∧ u.status.exitCode = some 255 ∧ u.status.cause = .dataOob) = true := by decide

/-- R36: the status outputs show each flag under its own name. -/
theorem test_status_shows_each_flag :
    (flags true false false).status = ⟨.running, .none, none, true, false, false, false, false, false⟩ ∧
    (errors false true false (flags false false true)).status =
      ⟨.running, .none, none, false, false, true, false, true, false⟩ := by decide

/-- CloseOnlyActsOnOpenSlots: an open slot and a closed one. -/
theorem witness_CloseOnlyActsOnOpenSlots :
    (State.reset.writeHandle 15 true).readHandle 15 = true ∧ State.reset.readHandle 0 = false := by decide

/-- StreamStubsReportAndContinue: both stubs are fetched, the next word being the last of memory and outside it. -/
theorem witness_StreamStubsReportAndContinue :
    Fetches (placed State.reset 1022 0xB2000000) (.fread 0xB2) ∧ Fetches (placed State.reset 1023 0xB3000000) (.fwrite 0xB3) :=
  ⟨fetches 0xB2000000 (by decide) (by decide) (by decide), fetches 0xB3000000 (by decide) (by decide) (by decide)⟩

/-- HandleTableOwnership: an instruction that is neither `OPEN` nor `CLOSE`, over two handle tables. -/
theorem witness_HandleTableOwnership :
    (∀ n, Instr.wrwa 0 ≠ .openSlot n ∧ Instr.wrwa 0 ≠ .closeSlot n) ∧ (∃ t, exec (.wrwa 0) State.reset = .next t) ∧
    ∃ t, exec (.wrwa 0) { State.reset with handle := Vector.replicate 16 true } = .next t :=
  ⟨fun _ => ⟨nofun, nofun⟩, ⟨_, rfl⟩, _, rfl⟩

/-- RegisterAndMemoryWriters: an instruction that changes a register, and one that changes a word of memory. -/
theorem witness_RegisterAndMemoryWriters :
    (∃ t, exec (.ldi 15 7) State.reset = .next t ∧ t.readReg 15 ≠ State.reset.readReg 15) ∧
    ∃ t, exec (.sta 1023) (alu 9 0 0 0) = .next t ∧ t.mem.read 1023 ≠ (alu 9 0 0 0).mem.read 1023 :=
  ⟨⟨_, rfl, by decide⟩, _, rfl, by decide⟩

/-- ParametersFixedAndStreamsGrow: a run of one step that grows a stream. -/
theorem witness_ParametersFixedAndStreamsGrow :
    ∃ t, Reaches State.reset t ∧ t.diag = [.unknownOpcode 0 0] :=
  ⟨_, .tail .refl rfl, by decide⟩

/-- StepKeepsTheInvariant: a state other than reset that meets it, and its step. -/
theorem witness_StepKeepsTheInvariant :
    (placed (depth 100 (errors true true true (flags false false true))) 1023 0x28200009).Inv ∧
    stepsTo (placed (depth 100 (errors true true true (flags false false true))) 1023 0x28200009) (fun _ => true) = true := by
  decide

/-- RunsNeverStop: a state a run starts from, with an image that fills its memory. -/
theorem witness_RunsNeverStop : Booted ((boot (sized 2 State.reset).cfg [0x18000007, 0x01000000]).getD State.reset) :=
  ⟨(sized 2 State.reset).cfg, [0x18000007, 0x01000000], by decide⟩

/-- BootLoadsTheImage and ResetValues: an image that fills memory, an empty one, and parameters in bounds. -/
theorem witness_Boot :
    (boot (sized 2 State.reset).cfg [0x18000007, 0x01000000]).isSome = true ∧ (boot Config.default []).isSome = true ∧
    Config.default.wf ∧ (sized 1 State.reset).cfg.wf ∧ (sized 2147483647 State.reset).cfg.wf := by decide

/-- LoaderRefusesWhatItMust: files of 0, 4 and 5 bytes, in either order, and a file that fills memory. -/
theorem witness_LoaderRefusesWhatItMust :
    imageOfBytes .little [] = some [] ∧ (imageOfBytes .big [1, 2, 3, 4]).isSome = true ∧
    imageOfBytes .little [1, 2, 3, 4, 5] = none ∧ (bootFile (sized 1 State.reset).cfg [1, 2, 3, 4]).isSome = true ∧
    (bootFile { (sized 1 State.reset).cfg with imageEndian := .big } [1, 2, 3, 4]).isSome = true := by decide

/-- EveryResetMeetsTheInvariant: a state after reset other than `State.reset`. -/
theorem witness_EveryResetMeetsTheInvariant : ∃ s, Booted s ∧ s ≠ State.reset :=
  ⟨(boot (sized 1 State.reset).cfg [0x01000000]).getD State.reset, ⟨(sized 1 State.reset).cfg, [0x01000000], by decide⟩,
    by decide⟩

/-- R54, R263: a core started from a file has the words of its parameter's byte order. -/
theorem test_boot_file :
    (bootFile Config.default [7, 0, 0, 0x18]).map (fun s => s.mem) = some [(0, 0x18000007)] ∧
    (bootFile { Config.default with imageEndian := .big } [7, 0, 0, 0x18]).map (fun s => s.mem) = some [(0, 0x07000018)] := by
  decide

end Sys2Proof.Tests
end

section
/-!
PROOFS. The codec (spec `30_encoding.md` R71 to R73): the four fields of a word, `encode` on any integers, and `patch_arg3`.
-/

namespace Sys2Proof.Proofs.Encoding

/-- Masking an integer to 16 bits before it becomes a word is zero-extending its low half (R73). -/
theorem ofInt_emod_eq_setWidth (n : Int) :
    BitVec.ofInt 32 (n % 65536) = (BitVec.ofInt 16 n).setWidth 32 := by
  apply BitVec.eq_of_toNat_eq
  simp only [BitVec.toNat_ofInt, BitVec.toNat_setWidth]
  omega

/-- A zero-extended 16-bit value has no bits in a field that lies above bit 15. -/
theorem extractLsb'_setWidth_eq_zero {i l : Nat} (v : Arg16) (hi : 16 ≤ i) :
    (v.setWidth 32).extractLsb' i l = 0#l := by
  ext k hk
  have hbit : v.getLsbD (i + k) = false := v.getLsbD_of_ge _ (by omega)
  simp [hbit]

/-- Clearing the low half of a word and putting a 16-bit value there replaces `a3` alone. -/
theorem fieldsOf_clearLow_or (w : Word) (v : Arg16) :
    fieldsOf ((w &&& 0xFFFF0000#32) ||| v.setWidth 32) = { fieldsOf w with a3 := v } := by
  have hop : (0xFFFF0000#32).extractLsb' 24 8 = BitVec.allOnes 8 := by decide
  have ha1 : (0xFFFF0000#32).extractLsb' 20 4 = BitVec.allOnes 4 := by decide
  have ha2 : (0xFFFF0000#32).extractLsb' 16 4 = BitVec.allOnes 4 := by decide
  have ha3 : (0xFFFF0000#32).extractLsb' 0 16 = 0#16 := by decide
  have hlow : (v.setWidth 32).extractLsb' 0 16 = v := by
    rw [BitVec.extractLsb'_setWidth_of_le (by decide), BitVec.extractLsb'_eq_self]
  simp (disch := omega) only [fieldsOf, BitVec.extractLsb'_or, BitVec.extractLsb'_and, hop, ha1, ha2, ha3, hlow,
    extractLsb'_setWidth_eq_zero, BitVec.and_allOnes, BitVec.and_zero, BitVec.or_zero, BitVec.zero_or]

/-- `patch_arg3` replaces one field of the four (R73). -/
theorem fieldsOf_patchArg3 (w : Word) (n : Int) :
    fieldsOf (patchArg3 w n) = { fieldsOf w with a3 := BitVec.ofInt 16 n } := by
  rw [patchArg3, ofInt_emod_eq_setWidth, fieldsOf_clearLow_or]

/-- Settles O2: the value of `encode`, and the round trip of the codec at a word made of fields. -/
theorem encodeMasksItsArguments : Obligations.EncodeMasksItsArguments :=
  ⟨encodeInts_toNat, fieldsOf_wordOf⟩

/-- Settles O3: the fields of the patched word are those of the old one, but for `a3`. -/
theorem patchArg3LeavesTheOtherFields : Obligations.PatchArg3LeavesTheOtherFields := by
  intro w n
  rw [fieldsOf_patchArg3]
  refine ⟨rfl, rfl, rfl, ?_⟩
  have harg : (BitVec.ofInt 16 n).toNat = (n % 65536).toNat := BitVec.toNat_ofInt ..
  rw [harg]
  exact Int.toNat_of_nonneg (Int.emod_nonneg n (by decide))

/-- Settles O1: each field of a word is a quotient and remainder of the word's unsigned value. -/
theorem decodeTakesTheFourFields : Obligations.DecodeTakesTheFourFields :=
  fieldsOf_toNat

end Sys2Proof.Proofs.Encoding
end

section
/-!
PROOFS. The dispatch engine (spec `40_dispatch_engine.md` R92): a step of a running core is steps 2 and 3 of the cycle, then
step 4.
-/

namespace Sys2Proof.Proofs.Engine

open Sys2Proof.Machine

/-- A step of a running core is step 4 applied to what steps 2 and 3 leave: the state `exec` of the decoded instruction
answers, or the old state with the diagnostic of an opcode without an entry (R92, R94, R95). -/
theorem exists_step_eq_advance {s : State} {w : Word} (hr : s.run = .running) (hf : s.fetch = some w) :
    ∃ t, ((∃ i, decode s.cfg.dispatch w = .ok i ∧ exec i s = .next t) ∨
          (∃ o, decode s.cfg.dispatch w = .error (.unassignedOpcode o) ∧
            t = s.report (.unknownOpcode o s.ic))) ∧
      step s = .next t.advance := by
  rw [step_running hr hf]
  cases hd : decode s.cfg.dispatch w with
  | ok i =>
    obtain ⟨t, ht⟩ := exec_isNext i s
    exact ⟨t, .inl ⟨i, rfl, ht⟩, State.runWord_ok hd ht⟩
  | error e =>
    obtain ⟨o⟩ := e
    exact ⟨_, .inr ⟨o, rfl, rfl⟩, State.runWord_error hd⟩

/-- Settles O9: the step is `advance` of what steps 2 and 3 leave, and `advance` has one law for each of the three ends. -/
theorem stepRunsTheDecodedInstruction : Obligations.StepRunsTheDecodedInstruction := by
  intro s w hr hf
  obtain ⟨t, hsource, hstep⟩ := exists_step_eq_advance hr hf
  refine ⟨(State.fetch_eq_some.1 hf).symm, t, hsource, ?_⟩
  rw [hstep]
  refine ⟨?stopped, ?inside, ?outside⟩
  case stopped => exact fun h => congrArg _ (State.advance_stopped h)
  case inside => exact fun h hlt => congrArg _ (State.advance_running h hlt)
  case outside => exact fun h hge => congrArg _ (State.advance_outside h hge)

end Sys2Proof.Proofs.Engine
end

section
/-!
PROOFS. Arithmetic (spec `42_arithmetic.md` R131, R133, R134): the three forms of an operation run the same operation on two
register operands, so each rule is proved once for the operation and holds of all three forms.
-/

namespace Sys2Proof.Proofs.Arithmetic

open Sys2Proof.Machine Sys2Proof.Claims

/-! ## The three forms of an operation -/

/-- Three instructions are the forms `RR`, `AR` and `AJ` of one operation on two register operands (R74, R130). -/
structure FormsOf (op : State → Place → Place → State) (rr : RegNum → RegNum → Instr) (ar : RegNum → Instr)
    (aj : Instr) : Prop where
  registers : ∀ ra rb s, exec (rr ra rb) s = .next (op s (.r ra) (.r rb))
  accRegister : ∀ ra s, exec (ar ra) s = .next (op s .a (.r ra))
  accLink : ∀ s, exec aj s = .next (op s .a .j)

theorem add_forms : FormsOf State.addOp .add .addar .addaj := ⟨fun _ _ _ => rfl, fun _ _ => rfl, fun _ => rfl⟩

theorem sub_forms : FormsOf State.subOp .sub .subar .subaj := ⟨fun _ _ _ => rfl, fun _ _ => rfl, fun _ => rfl⟩

theorem mult_forms : FormsOf State.multOp .mult .multar .multaj := ⟨fun _ _ _ => rfl, fun _ _ => rfl, fun _ => rfl⟩

theorem div_forms : FormsOf State.divOp .div .divar .divaj := ⟨fun _ _ _ => rfl, fun _ _ => rfl, fun _ => rfl⟩

theorem mod_forms : FormsOf State.modOp .mod .modar .modaj := ⟨fun _ _ _ => rfl, fun _ _ => rfl, fun _ => rfl⟩

/-- What an operation does to every pair of operands, each of its three forms does. -/
theorem FormsOf.does {op : State → Place → Place → State} {rr : RegNum → RegNum → Instr} {ar : RegNum → Instr} {aj : Instr}
    (h : FormsOf op rr ar aj) {s : State} {ps : List StatePart} {Q : Word → Word → State → Prop}
    (hframe : ∀ p q, OnlyChanges ps s (op s p q)) (hQ : ∀ p q, Q (s.get p) (s.get q) (op s p q)) :
    EachForm rr ar aj s fun i p q => Does i s ps (Q p q) :=
  ⟨fun ra rb => ⟨_, h.registers ra rb s, hQ (.r ra) (.r rb), hframe _ _⟩,
    fun ra => ⟨_, h.accRegister ra s, hQ .a (.r ra), hframe _ _⟩,
    ⟨_, h.accLink s, hQ .a .j, hframe _ _⟩⟩

/-! ## Add, sub and mult: an exact result narrowed to `acc` -/

/-- The state holds an exact result: `acc` its wrapped value, `flag.OVF` whether it is out of range (R131, R133). -/
structure Narrows (z : Int) (t : State) : Prop where
  acc : signed t.acc = wrapped z
  ovf : t.flagOvf = true ↔ Overflows z

theorem setOvf_put_narrows (s : State) (z : Int) : Narrows z ((s.setOvf (outOfRange z)).put .a (wrap32 z)) :=
  ⟨signed_wrap32 z, outOfRange_iff z⟩

theorem addOp_narrows (s : State) (p q : Place) : Narrows (signed (s.get p) + signed (s.get q)) (s.addOp p q) :=
  setOvf_put_narrows s _

theorem subOp_narrows (s : State) (p q : Place) : Narrows (signed (s.get p) - signed (s.get q)) (s.subOp p q) :=
  setOvf_put_narrows s _

theorem multOp_narrows (s : State) (p q : Place) : Narrows (signed (s.get p) * signed (s.get q)) (s.multOp p q) := by
  simp only [State.multOp, multOverflow_eq]
  exact setOvf_put_narrows s _

/-- Wrapping changes exactly the integers a signed word cannot hold (R9). -/
theorem overflows_iff_wrapped_ne (z : Int) : Overflows z ↔ wrapped z ≠ z := by
  unfold Overflows wrapped
  omega

theorem Narrows.ovf_iff_acc_ne {z : Int} {t : State} (h : Narrows z t) : t.flagOvf = true ↔ signed t.acc ≠ z := by
  rw [h.ovf, h.acc, overflows_iff_wrapped_ne]

/-- Settles O16: the exact sum and the exact difference are what the two operations narrow. -/
theorem addSubOverflowIsExact : Obligations.AddSubOverflowIsExact := fun s =>
  ⟨add_forms.does s.addOp_changes fun p q => (addOp_narrows s p q).ovf,
    sub_forms.does s.subOp_changes fun p q => (subOp_narrows s p q).ovf⟩

/-- Settles O17: a narrowed result differs from the exact one exactly where that one overflows. -/
theorem arithmeticWrapsAround : Obligations.ArithmeticWrapsAround := by
  intro s
  refine ⟨add_forms.does s.addOp_changes fun p q => ?add, sub_forms.does s.subOp_changes fun p q => ?sub,
    mult_forms.does s.multOp_changes fun p q => ?mult⟩
  case add => exact ⟨(addOp_narrows s p q).acc, (addOp_narrows s p q).ovf_iff_acc_ne⟩
  case sub => exact ⟨(subOp_narrows s p q).acc, (subOp_narrows s p q).ovf_iff_acc_ne⟩
  case mult => exact ⟨(multOp_narrows s p q).acc, (multOp_narrows s p q).ovf_iff_acc_ne⟩

/-! ## Div and mod -/

/-- A truncating remainder is zero or has the dividend's sign (R134). -/
theorem tmod_sign (a b : Int) : a.tmod b = 0 ∨ (0 < a.tmod b ∧ 0 < a) ∨ (a.tmod b < 0 ∧ a < 0) := by
  rcases lt_trichotomy a 0 with hneg | rfl | hpos
  · have hrem : 0 ≤ (-a).tmod b := Int.tmod_nonneg b (by omega)
    rw [Int.neg_tmod] at hrem
    omega
  · exact .inl (Int.zero_tmod b)
  · have hrem : 0 ≤ a.tmod b := Int.tmod_nonneg b hpos.le
    omega

theorem abs_tmod_lt (a : Int) {b : Int} (hb : b ≠ 0) : |a.tmod b| < |b| := by
  rw [Int.abs_eq_natAbs, Int.abs_eq_natAbs, Int.natAbs_tmod]
  exact_mod_cast Nat.mod_lt _ (Int.natAbs_pos.2 hb)

/-- `trunc_div` and `trunc_rem` are the quotient and the remainder of the truncating division (R9, R134). -/
theorem truncates_tdiv_tmod (a : Int) {b : Int} (hb : b ≠ 0) : Truncates a b (a.tdiv b) (a.tmod b) :=
  ⟨(Int.mul_tdiv_add_tmod a b).symm, abs_tmod_lt a hb, tmod_sign a b⟩

theorem signed_ne_zero {w : Word} (h : w ≠ 0) : signed w ≠ 0 := fun e => h (BitVec.eq_of_toInt_eq e)

theorem divideOp_zero_divisor (s : State) (f : Int → Int → Int) {p q : Place} (h : s.get q = 0) :
    (s.divideOp f p q).flagDbz = true ∧ (s.divideOp f p q).acc = 0 := by
  rw [State.divideOp_zero s f p q h]
  exact ⟨rfl, rfl⟩

theorem divideOp_nonzero_divisor (s : State) (f : Int → Int → Int) {p q : Place} (h : s.get q ≠ 0) :
    (s.divideOp f p q).flagDbz = false ∧
      signed (s.divideOp f p q).acc = wrapped (f (signed (s.get p)) (signed (s.get q))) := by
  rw [State.divideOp_nonzero s f p q h]
  exact ⟨rfl, signed_wrap32 _⟩

/-- Settles O19: the two operations are one division, of which `acc` takes the quotient or the remainder. -/
theorem divisionTruncates : Obligations.DivisionTruncates := by
  intro s
  refine ⟨div_forms.does (s.divideOp_changes _) fun p q => ⟨divideOp_zero_divisor s _, fun hq => ?div⟩,
    mod_forms.does (s.divideOp_changes _) fun p q => ⟨divideOp_zero_divisor s _, fun hq => ?mod⟩⟩
  case div =>
    obtain ⟨hdbz, hacc⟩ := divideOp_nonzero_divisor s Int.tdiv (p := p) hq
    exact ⟨hdbz, _, _, truncates_tdiv_tmod _ (signed_ne_zero hq), hacc⟩
  case mod =>
    obtain ⟨hdbz, hacc⟩ := divideOp_nonzero_divisor s Int.tmod (p := p) hq
    exact ⟨hdbz, _, _, truncates_tdiv_tmod _ (signed_ne_zero hq), hacc⟩

end Sys2Proof.Proofs.Arithmetic
end

section
/-!
PROOFS. Bitwise and shift (spec `43_bitwise_shift.md` R155): each operation puts one word into `acc`, and that word is a
function of the operand words alone; so states that agree on the operands get the same `acc`.
-/

namespace Sys2Proof.Proofs.BitwiseShift

open Sys2Proof.Machine Sys2Proof.Claims Sys2Proof.Proofs.Arithmetic

/-! ## Operations that put a function of their operands into `acc` -/

/-- The operation writes `acc` alone, with the word a function gives for its two operand words (R155). -/
def PutsIntoAcc (f : Word → Word → Word) (op : State → Place → Place → State) : Prop :=
  ∀ s p q, op s p q = s.put .a (f (s.get p) (s.get q))

theorem andOp_putsIntoAcc : PutsIntoAcc (fun v w => v &&& w) State.andOp := fun _ _ _ => rfl

theorem orOp_putsIntoAcc : PutsIntoAcc (fun v w => v ||| w) State.orOp := fun _ _ _ => rfl

theorem shlOp_putsIntoAcc : PutsIntoAcc (fun v w => wrap32 (signed v * 2 ^ shiftAmount w)) State.shlOp :=
  fun _ _ _ => rfl

theorem shrOp_putsIntoAcc : PutsIntoAcc (fun v w => wrap32 (Int.fdiv (signed v) (2 ^ shiftAmount w))) State.shrOp :=
  fun _ _ _ => rfl

theorem and_forms : FormsOf State.andOp .and .andar .andaj := ⟨fun _ _ _ => rfl, fun _ _ => rfl, fun _ => rfl⟩

theorem or_forms : FormsOf State.orOp .or .orar .oraj := ⟨fun _ _ _ => rfl, fun _ _ => rfl, fun _ => rfl⟩

theorem shl_forms : FormsOf State.shlOp .shl .shlar .shlaj := ⟨fun _ _ _ => rfl, fun _ _ => rfl, fun _ => rfl⟩

theorem shr_forms : FormsOf State.shrOp .shr .shrar .shraj := ⟨fun _ _ _ => rfl, fun _ _ => rfl, fun _ => rfl⟩

/-! ## Agreement on the operands -/

/-- The instruction completes in both states and gives them the same `acc`; from the first it changes nothing else. -/
def GivesSameAcc (i : Instr) (s s' : State) : Prop :=
  ∃ t, exec i s' = .next t ∧ Does i s [.acc] fun u => u.acc = t.acc

/-- Where the word an instruction puts into `acc` is the same in two states, so is the `acc` it leaves. -/
theorem givesSameAcc_of_exec_eq_put {i : Instr} {f : State → Word} (hexec : ∀ s, exec i s = .next (s.put .a (f s)))
    {s s' : State} (hword : f s = f s') : GivesSameAcc i s s' :=
  ⟨_, hexec s', _, hexec s, hword, s.put_changes .a (f s)⟩

theorem PutsIntoAcc.givesSameAcc {f : Word → Word → Word} {op : State → Place → Place → State} (hop : PutsIntoAcc f op)
    {i : Instr} {p q : Place} (hexec : ∀ s, exec i s = .next (op s p q)) {s s' : State} (hp : s.get p = s'.get p)
    (hq : s.get q = s'.get q) : GivesSameAcc i s s' := by
  have hput : ∀ s, exec i s = .next (s.put .a (f (s.get p) (s.get q))) := fun s => by rw [hexec s, hop s p q]
  exact givesSameAcc_of_exec_eq_put hput (by rw [hp, hq])

theorem notOp_givesSameAcc {i : Instr} {p : Place} (hexec : ∀ s, exec i s = .next (s.notOp p)) {s s' : State}
    (hp : s.get p = s'.get p) : GivesSameAcc i s s' :=
  givesSameAcc_of_exec_eq_put (f := fun s => ~~~(s.get p)) hexec (by rw [hp])

/-- Each of the three forms `RR`, `AR`, `AJ` reads its own two operands and nothing else. -/
structure ReadsOnlyOperands (rr : RegNum → RegNum → Instr) (ar : RegNum → Instr) (aj : Instr) : Prop where
  registers : ∀ {s s' : State} {ra rb : RegNum}, s.readReg ra = s'.readReg ra → s.readReg rb = s'.readReg rb →
    GivesSameAcc (rr ra rb) s s'
  accRegister : ∀ {s s' : State} {ra : RegNum}, s.acc = s'.acc → s.readReg ra = s'.readReg ra → GivesSameAcc (ar ra) s s'
  accLink : ∀ {s s' : State}, s.acc = s'.acc → s.jmp = s'.jmp → GivesSameAcc aj s s'

theorem PutsIntoAcc.readsOnlyOperands {f : Word → Word → Word} {op : State → Place → Place → State}
    {rr : RegNum → RegNum → Instr} {ar : RegNum → Instr} {aj : Instr} (hop : PutsIntoAcc f op)
    (hforms : FormsOf op rr ar aj) : ReadsOnlyOperands rr ar aj where
  registers ha hb := hop.givesSameAcc (hforms.registers _ _) ha hb
  accRegister hacc ha := hop.givesSameAcc (hforms.accRegister _) hacc ha
  accLink hacc hjmp := hop.givesSameAcc hforms.accLink hacc hjmp

theorem and_readsOnlyOperands : ReadsOnlyOperands .and .andar .andaj := andOp_putsIntoAcc.readsOnlyOperands and_forms

theorem or_readsOnlyOperands : ReadsOnlyOperands .or .orar .oraj := orOp_putsIntoAcc.readsOnlyOperands or_forms

theorem shl_readsOnlyOperands : ReadsOnlyOperands .shl .shlar .shlaj := shlOp_putsIntoAcc.readsOnlyOperands shl_forms

theorem shr_readsOnlyOperands : ReadsOnlyOperands .shr .shrar .shraj := shrOp_putsIntoAcc.readsOnlyOperands shr_forms

/-- What holds of one form of and, or, shl and shr holds of the list of the four. -/
theorem forall_mem_four {P : Instr → Prop} {a b c d : Instr} (ha : P a) (hb : P b) (hc : P c) (hd : P d) :
    ∀ i ∈ [a, b, c, d], P i := by
  simp [ha, hb, hc, hd]

/-- Settles O21: the word put into `acc` is a function of the operand words, in each form of the four two-operand operations
and in the three instructions of not. -/
theorem bitwiseWritesOnlyTheAccumulator : Obligations.BitwiseWritesOnlyTheAccumulator := by
  refine ⟨?registers, ?accRegister, ?accLink, ?not, ?nota, ?notj⟩
  case registers =>
    exact fun s s' ra rb ha hb => forall_mem_four (and_readsOnlyOperands.registers ha hb)
      (or_readsOnlyOperands.registers ha hb) (shl_readsOnlyOperands.registers ha hb) (shr_readsOnlyOperands.registers ha hb)
  case accRegister =>
    exact fun s s' ra hacc ha => forall_mem_four (and_readsOnlyOperands.accRegister hacc ha)
      (or_readsOnlyOperands.accRegister hacc ha) (shl_readsOnlyOperands.accRegister hacc ha)
      (shr_readsOnlyOperands.accRegister hacc ha)
  case accLink =>
    exact fun s s' hacc hjmp => forall_mem_four (and_readsOnlyOperands.accLink hacc hjmp)
      (or_readsOnlyOperands.accLink hacc hjmp) (shl_readsOnlyOperands.accLink hacc hjmp)
      (shr_readsOnlyOperands.accLink hacc hjmp)
  case not => exact fun s s' ra ha => notOp_givesSameAcc (p := .r ra) (fun _ => rfl) ha
  case nota => exact fun s s' hacc => notOp_givesSameAcc (p := .a) (fun _ => rfl) hacc
  case notj => exact fun s s' hjmp => notOp_givesSameAcc (p := .j) (fun _ => rfl) hjmp

end Sys2Proof.Proofs.BitwiseShift
end

section
/-!
PROOFS. Branches (spec `45_branch.md` R190 to R192, R197, R198): all branches are one operation, `State.branchIf`, under their
own conditions; so where a branch continues is proved once for the operation.
-/

namespace Sys2Proof.Proofs.Branch

open Sys2Proof.Machine Sys2Proof.Claims

/-! ## The encoding of one row of the table -/

/-- A row of the default table fixes the instruction of every word with its opcode (R78, R94). -/
theorem encoded_of_lookup {o : Opcode} {op : Op} (h : Dispatch.default.lookup o = some op) :
    Encoded o fun a1 a2 a3 => op.instr ⟨o, a1, a2, a3⟩ := by
  intro a1 a2 a3
  have hfields : fieldsOf (o ++ a1 ++ a2 ++ a3) = ⟨o, a1, a2, a3⟩ := fieldsOf_append o a1 a2 a3
  rw [decode_of_lookup (op := op) (by rw [hfields, h]), hfields]

/-! ## Where a step continues after its instruction -/

theorem step_of_fetches {s t : State} {i : Instr} (hf : Fetches s i) (he : exec i s = .next t) :
    step s = .next t.advance := by
  obtain ⟨hr, w, hw, hd⟩ := hf
  rw [step_running hr hw, State.runWord_ok hd he]

theorem setIc_changes (s : State) (w : Word) : OnlyChanges [.ic] s { s with ic := w } := by
  intro p hp
  cases p with
  | ic => simp at hp
  | _ => rfl

/-- An instruction that leaves the core running is followed by the increment and its bounds test: the step continues at the
address after the `ic` the instruction left (R92, R96, R97). -/
theorem goesTo_of_exec {s t : State} {i : Instr} {ps : List StatePart} {Q : State → Prop} (hf : Fetches s i)
    (he : exec i s = .next t) (hrun : t.run = .running) (hcfg : t.cfg = s.cfg)
    (hframe : OnlyChanges (.ic :: ps) s t) (hQ : Q t.advance) : GoesTo s (unsigned (t.ic + 1)) ps Q := by
  have hstep := step_of_fetches hf he
  have hinc : OnlyChanges (.ic :: ps) s { t with ic := t.ic + 1 } :=
    (hframe.trans (setIc_changes t _)).mono (by grind)
  rcases Nat.lt_or_ge (unsigned (t.ic + 1)) s.cfg.memSize with hlt | hge
  · have hadv := State.advance_running hrun (hcfg ▸ hlt)
    rw [hadv] at hstep hQ
    exact ⟨_, hstep, rfl, hQ, fun _ => ⟨hrun, hinc⟩, fun hge => absurd hlt (Nat.not_lt.2 hge)⟩
  · have hadv := State.advance_outside hrun (hcfg ▸ hge)
    have habort : OnlyChanges (.ic :: .run :: .cause :: ps) s (State.abort { t with ic := t.ic + 1 } .icOob) :=
      (hinc.trans (State.abort_changes _ .icOob)).mono (by grind)
    rw [hadv] at hstep hQ
    exact ⟨_, hstep, rfl, hQ, fun hlt => absurd hge (Nat.not_le.2 hlt), fun _ => ⟨rfl, rfl, habort⟩⟩

/-! ## The branch operation -/

/-- The address the increment gives after a branch: the target where it is taken, else the next word (R190, R191). -/
theorem branchIf_nextAddress (s : State) (taken : Bool) (a : Arg16) :
    unsigned ((s.branchIf taken a).ic + 1) = if taken then a.toNat else nextAddress s := by
  cases taken with
  | true => exact beforeTarget_add_one a
  | false => rfl

theorem branchIf_branches {b : Instr} {s : State} {taken : Bool} {a : Arg16}
    (he : exec b s = .next (s.branchIf taken a)) : BranchesWhen b a taken s := by
  refine ⟨⟨_, he, ⟨?taken, ?untaken⟩, s.branchIf_changes taken a⟩, fun hf => ?step⟩
  case taken =>
    rintro rfl
    exact beforeTarget_add_one a
  case untaken =>
    rintro rfl
    rfl
  case step =>
    rw [← branchIf_nextAddress]
    exact goesTo_of_exec hf he hf.1 rfl (s.branchIf_changes taken a) trivial

theorem bran_branches (s : State) (a : Arg16) : BranchesWhen (.bran a) a true s := branchIf_branches rfl

theorem brge_branches (s : State) (a : Arg16) : BranchesWhen (.brge a) a (s.flagGt || s.flagEq) s := branchIf_branches rfl

theorem brgl_branches (s : State) (a : Arg16) : BranchesWhen (.brgl a) a (s.flagGt || s.flagLt) s := branchIf_branches rfl

/-! ## Greater or less, after a compare -/

theorem compareMem_cases (s : State) (p : Place) (a : Arg16) :
    (∃ v w, s.compareMem p a = s.compare v w) ∨ s.compareMem p a = s.abort .dataOob := by
  rcases Nat.lt_or_ge (dataAddress a) s.cfg.memSize with hlt | hge
  · exact .inl ⟨_, _, s.compareMem_inside p hlt⟩
  · exact .inr (s.compareMem_outside p hge)

/-- Everything a compare can do: it compares two words, or its cell does not exist (R181 to R185). -/
theorem exec_compare_cases {c : Instr} {s t : State} (hc : isCompare c = true) (he : exec c s = .next t) :
    (∃ p q, t = s.compare p q) ∨ t = s.abort .dataOob := by
  cases c with
  | cmp ra rb => cases he; exact .inl ⟨_, _, rfl⟩
  | cmpar ra => cases he; exact .inl ⟨_, _, rfl⟩
  | cmpaj => cases he; exact .inl ⟨_, _, rfl⟩
  | cmprm ra a => cases he; exact compareMem_cases s (.r ra) a
  | cmpam a => cases he; exact compareMem_cases s .a a
  | _ => cases hc

/-- Of two words the first is greater or less exactly where they are not equal (R180, R198). -/
theorem compare_gt_or_lt (s : State) (p q : Word) :
    ((s.compare p q).flagGt || (s.compare p q).flagLt) = !(s.compare p q).flagEq := by
  simp only [State.compare_flagGt, State.compare_flagLt, State.compare_flagEq]
  rw [Bool.eq_iff_iff]
  simp only [Bool.or_eq_true, Bool.not_eq_true', decide_eq_true_eq, decide_eq_false_iff_not]
  omega

theorem gt_or_lt_after_compare {c : Instr} {s t : State} (hc : isCompare c = true) (he : exec c s = .next t)
    (hrun : t.run = .running) : (t.flagGt || t.flagLt) = !t.flagEq := by
  rcases exec_compare_cases hc he with ⟨p, q, rfl⟩ | rfl
  · exact compare_gt_or_lt s p q
  · cases hrun

/-! ## The statements -/

/-- Settles O27: the row of opcode 0x80, and the branch operation with a condition that always holds. -/
theorem branchAlways : Obligations.BranchAlways :=
  ⟨encoded_of_lookup (op := .bran) (by decide), bran_branches⟩

/-- Settles O28: the row of opcode 0x85, and the branch operation on greater or equal. -/
theorem branchGreaterOrEqual : Obligations.BranchGreaterOrEqual :=
  ⟨encoded_of_lookup (op := .brge) (by decide), brge_branches⟩

/-- Settles O29: the row of opcode 0x86, and the branch operation on greater or less, which a compare makes "not equal". -/
theorem branchGreaterOrLess : Obligations.BranchGreaterOrLess := by
  refine ⟨encoded_of_lookup (op := .brgl) (by decide), brgl_branches, ?afterCompare⟩
  intro c s t a hc _ he hrun
  rw [← gt_or_lt_after_compare hc he hrun]
  exact brgl_branches t a

end Sys2Proof.Proofs.Branch
end

section
/-!
PROOFS. Halt (spec `47_halt.md` R215 to R217): no instruction but the two halts, and no other part of a cycle, ends a run softly.
-/

namespace Sys2Proof.Proofs.Halt

open Sys2Proof.Machine Sys2Proof.Claims Sys2Proof.Proofs.Branch

/-! ## The run state after an operation -/

/-- From `s` to `t` the run state is kept, or the core aborted: what R217 says of everything but the two halts. -/
def KeepsRunOrAborts (s t : State) : Prop :=
  t.run = s.run ∨ t.run = .abortedOob

theorem KeepsRunOrAborts.trans {s t u : State} (hst : KeepsRunOrAborts s t) (htu : KeepsRunOrAborts t u) :
    KeepsRunOrAborts s u := by
  rcases htu with hkept | habort
  · rw [KeepsRunOrAborts, hkept]
    exact hst
  · exact .inr habort

theorem abort_keepsRunOrAborts (s : State) (c : AbortCause) : KeepsRunOrAborts s (s.abort c) := .inr rfl

theorem withMemRead_keepsRunOrAborts {s : State} {k : Word → State} (hk : ∀ v, (k v).run = s.run) (a : Nat) :
    KeepsRunOrAborts s (s.withMemRead a k) := by
  rcases s.withMemRead_cases a k with ⟨-, e⟩ | ⟨-, e⟩ <;> rw [e]
  · exact .inl (hk _)
  · exact abort_keepsRunOrAborts s _

theorem load_keepsRunOrAborts (s : State) (dst : Place) (a : Arg16) : KeepsRunOrAborts s (s.load dst a) :=
  withMemRead_keepsRunOrAborts (fun v => s.put_run dst v) _

theorem compareMem_keepsRunOrAborts (s : State) (p : Place) (a : Arg16) : KeepsRunOrAborts s (s.compareMem p a) :=
  withMemRead_keepsRunOrAborts (fun v => s.compare_run (s.get p) v) _

theorem store_keepsRunOrAborts (s : State) (src : Place) (a : Arg16) : KeepsRunOrAborts s (s.store src a) := by
  rcases s.memWrite_cases (dataAddress a) (s.get src) with ⟨-, e⟩ | ⟨-, e⟩ <;> rw [State.store, e]
  · exact .inl rfl
  · exact abort_keepsRunOrAborts s _

theorem callTo_keepsRunOrAborts (s : State) (a : Arg16) : KeepsRunOrAborts s (s.callTo a) := by
  rcases s.callTo_cases a with ⟨-, e⟩ | ⟨-, t, ht, e⟩ | ⟨-, -, e⟩ <;> rw [e]
  · exact .inl rfl
  · obtain ⟨-, rfl⟩ := State.push_some ht
    exact .inl rfl
  · exact abort_keepsRunOrAborts s _

theorem returnFromCall_run (s : State) : s.returnFromCall.run = s.run := by
  by_cases h : s.top.val = 0
  · rw [State.returnFromCall_empty h]
  · rw [State.returnFromCall_pop h]

/-- Division writes a flag and the accumulator, whatever its divisor. -/
theorem divideOp_run (s : State) (f : Int → Int → Int) (p q : Place) : (s.divideOp f p q).run = s.run :=
  s.divideOp_changes f p q .run (by decide)

theorem closeHandle_run (s : State) (n : Slot) : (s.closeHandle n).run = s.run := by
  cases h : s.readHandle n with
  | true => rw [s.closeHandle_open h, State.writeHandle_run, State.ask_run]
  | false => rw [s.closeHandle_closed h]

/-- Every instruction but the two halts leaves the core in its run state or aborts it (R215 to R217). -/
theorem exec_keepsRunOrAborts {i : Instr} {s t : State} (hhalt : i ≠ .halt) (hhalte : i ≠ .halte)
    (he : exec i s = .next t) : KeepsRunOrAborts s t := by
  cases i with
  | halt => exact absurd rfl hhalt
  | halte => exact absurd rfl hhalte
  | ld | lda | ldj => cases he; exact load_keepsRunOrAborts s _ _
  | st | sta | stj => cases he; exact store_keepsRunOrAborts s _ _
  | cmprm | cmpam => cases he; exact compareMem_keepsRunOrAborts s _ _
  | div | divar | divaj | mod | modar | modaj => cases he; exact .inl (divideOp_run s _ _ _)
  | call a => cases he; exact callTo_keepsRunOrAborts s a
  | ret => cases he; exact .inl (returnFromCall_run s)
  | closeSlot n => cases he; exact .inl (closeHandle_run s n)
  | _ => cases he; exact .inl rfl

/-! ## The run state after a step -/

theorem advance_keepsRunOrAborts (s : State) : KeepsRunOrAborts s s.advance := by
  rcases s.advance_cases with ⟨-, e⟩ | ⟨-, -, e⟩ | ⟨-, -, e⟩ <;> rw [e]
  · exact .inl rfl
  · exact .inl rfl
  · exact .inr rfl

/-- A step that executes neither halt keeps the run state or aborts: an instruction, the no-op of an unassigned opcode and the
increment all do (R92, R95, R97, R217). -/
theorem step_keepsRunOrAborts {s u : State} (hhalt : ¬Fetches s .halt) (hhalte : ¬Fetches s .halte)
    (hs : step s = .next u) : KeepsRunOrAborts s u := by
  rcases step_cases hs with ⟨-, rfl⟩ | ⟨hr, w, hw, ⟨i, t, hd, he, rfl⟩ | ⟨o, -, rfl⟩⟩
  case inl => exact .inl rfl
  case inr.inl =>
    have hf : Fetches s i := ⟨hr, w, hw, hd⟩
    have hexec : KeepsRunOrAborts s t :=
      exec_keepsRunOrAborts (fun h => hhalt (h ▸ hf)) (fun h => hhalte (h ▸ hf)) he
    exact hexec.trans (advance_keepsRunOrAborts t)
  case inr.inr => exact advance_keepsRunOrAborts (s.report (.unknownOpcode o s.ic))

/-- A step that executes a halt ends in that halt's run state: the increment does nothing once the core has stopped (R97). -/
theorem step_run_of_haltAs {s u : State} {i : Instr} {r : RunState} (hf : Fetches s i)
    (he : exec i s = .next (s.haltAs r)) (hr : r ≠ .running) (hs : step s = .next u) : u.run = r := by
  have hstep := step_of_fetches hf he
  rw [State.advance_stopped (s := s.haltAs r) hr, hs] at hstep
  cases hstep
  rfl

/-- Everything the step of a running core can do to the run state (R217). -/
theorem step_run_cases {s u : State} (hr : s.run = .running) (hs : step s = .next u) :
    (Fetches s .halt ∧ u.run = .haltedOk) ∨ (Fetches s .halte ∧ u.run = .haltedError) ∨
      (¬Fetches s .halt ∧ ¬Fetches s .halte ∧ (u.run = .running ∨ u.run = .abortedOob)) := by
  by_cases hhalt : Fetches s .halt
  · exact .inl ⟨hhalt, step_run_of_haltAs hhalt rfl (by decide) hs⟩
  by_cases hhalte : Fetches s .halte
  · exact .inr (.inl ⟨hhalte, step_run_of_haltAs hhalte rfl (by decide) hs⟩)
  · exact .inr (.inr ⟨hhalt, hhalte, hr ▸ step_keepsRunOrAborts hhalt hhalte hs⟩)

/-! ## Runs -/

/-- A run that is never about to execute a halt keeps the run state it began in, or ends in an abort (R217). -/
theorem reaches_keepsRunOrAborts {s u : State} (hu : Reaches s u)
    (hno : ∀ t, Reaches s t → ¬Fetches t .halt ∧ ¬Fetches t .halte) : KeepsRunOrAborts s u := by
  induction hu with
  | refl => exact .inl rfl
  | @tail t u ht hs ih =>
    obtain ⟨hhalt, hhalte⟩ := hno t ht
    exact ih.trans (step_keepsRunOrAborts hhalt hhalte hs)

/-! ## The statement -/

/-- Settles O37: the step by its three cases, the run by induction on its steps, and the table, which has no row for opcode 0. -/
theorem onlyHaltsTerminateSoftly : Obligations.OnlyHaltsTerminateSoftly := by
  refine ⟨fun s u hr hs => ⟨⟨?ok, ?halt⟩, ⟨?error, ?halte⟩, ?exitOk, ?exitError⟩, ?run, ?zeroWord⟩
  case ok =>
    intro hu
    rcases step_run_cases hr hs with ⟨hf, -⟩ | ⟨-, e⟩ | ⟨-, -, e | e⟩
    · exact hf
    all_goals cases hu.symm.trans e
  case halt => exact fun hf => step_run_of_haltAs hf rfl (by decide) hs
  case error =>
    intro hu
    rcases step_run_cases hr hs with ⟨-, e⟩ | ⟨hf, -⟩ | ⟨-, -, e | e⟩
    · cases hu.symm.trans e
    · exact hf
    all_goals cases hu.symm.trans e
  case halte => exact fun hf => step_run_of_haltAs hf rfl (by decide) hs
  case exitOk => exact fun hu => by rw [State.exitCode, hu]
  case exitError => exact fun hu => by rw [State.exitCode, hu]
  case run => exact fun s u hr hu hno => hr ▸ reaches_keepsRunOrAborts hu hno
  case zeroWord => exact decode_of_lookup_none (by decide)

end Sys2Proof.Proofs.Halt
end

section
/-!
PROOFS. The dispatch table (spec `30_encoding.md` R74 to R79): an instruction goes to its opcode and fields and back, under every
table; the rows of the default table; its ignored fields.
-/

namespace Sys2Proof.Proofs.Dispatch

open Sys2Proof.Claims Sys2Proof.Proofs.Branch

/-! ## Encode, then decode, under any table -/

/-- Every instruction is what its operation makes of its fields (R74). -/
theorem instr_fields (i : Instr) : Laws.FieldsRoundTrip.Statement i := by
  cases i with
  | wrw ra f => exact Laws.FieldsRoundTrip.wrw ra f
  | wrwa f => exact Laws.FieldsRoundTrip.wrwa f
  | rdw ra f => exact Laws.FieldsRoundTrip.rdw ra f
  | rdwa f => exact Laws.FieldsRoundTrip.rdwa f
  | fread o => exact Laws.FieldsRoundTrip.fread o
  | fwrite o => exact Laws.FieldsRoundTrip.fwrite o
  | _ => exact fun _ _ => rfl

@[simp] theorem fields_op (i : Instr) (o : Opcode) : (i.fields o).op = o := by
  cases i <;> rfl

/-- A table that names an operation has an opcode that selects it (R78). -/
theorem opcodeOf_of_assigned {i : Instr} {d : Dispatch} (h : i.assigned d = true) :
    ∃ o, d.opcodeOf i.op = some o ∧ d.lookup o = some i.op := by
  obtain ⟨row, hrow⟩ : ∃ row, d.find? (fun row => row.2 == i.op && d.lookup row.1 == some i.op) = some row := by
    rw [← Option.isSome_iff_exists, List.find?_isSome]
    simpa [Instr.assigned] using h
  have hsel := List.find?_some hrow
  simp only [Bool.and_eq_true, beq_iff_eq] at hsel
  exact ⟨row.1, by rw [Dispatch.opcodeOf, hrow]; rfl, hsel.2⟩

/-- A well-formed instruction is encoded under an opcode that selects its operation, a stream stub under its own (R78, R233). -/
theorem opcodeIn_of_wellFormed {i : Instr} {d : Dispatch} (h : i.wellFormed d = true) :
    ∃ o, i.opcodeIn d = some o ∧ d.lookup o = some i.op ∧ ∀ c, i.carriedOpcode = some c → c = o := by
  simp only [Instr.wellFormed, Bool.and_eq_true] at h
  obtain ⟨hassigned, hcarries⟩ := h
  cases hc : i.carriedOpcode with
  | some c =>
    have hlookup : d.lookup c = some i.op := by simpa [Instr.carriesItsOpcode, hc] using hcarries
    exact ⟨c, by simp [Instr.opcodeIn, hc, hlookup], hlookup, fun _ e => (Option.some.inj e).symm⟩
  | none =>
    obtain ⟨o, hof, hlookup⟩ := opcodeOf_of_assigned hassigned
    exact ⟨o, by simp [Instr.opcodeIn, hc, hof], hlookup, fun _ e => nomatch e⟩

/-- The word of an instruction's fields decodes to it, under an opcode that selects its operation (R71, R72, R94). -/
theorem decode_wordOf_fields {i : Instr} {d : Dispatch} {o : Opcode} (hlookup : d.lookup o = some i.op)
    (hcarried : ∀ c, i.carriedOpcode = some c → c = o) : decode d (wordOf (i.fields o)) = .ok i := by
  rw [decode_of_lookup (op := i.op) (by rw [fieldsOf_wordOf, fields_op, hlookup]), fieldsOf_wordOf,
    instr_fields i o hcarried]

/-- Settles O6: the opcode the instruction is encoded under selects its operation, and the fields give its operands back. -/
theorem encodedInstructionsDecode : Obligations.EncodedInstructionsDecode := by
  intro d i h
  obtain ⟨o, hop, hlookup, hcarried⟩ := opcodeIn_of_wellFormed h
  exact ⟨_, by rw [encode, hop]; rfl, decode_wordOf_fields hlookup hcarried⟩

/-! ## The default table -/

/-- The format bit as the statements write it: bit 0 of `a2` (R220). -/
theorem fmtOf_eq_ofBool (a2 : BitVec 4) : fmtOf a2 = BitVec.ofBool (a2.getLsbD 0) := by
  revert a2
  decide

theorem haltEncodings_hold : haltEncodings :=
  ⟨encoded_of_lookup (op := .halt) (by decide), encoded_of_lookup (op := .halte) (by decide)⟩

theorem moveEncodings_hold : moveEncodings := by
  refine ⟨encoded_of_lookup (op := .mov) ?_, encoded_of_lookup (op := .movra) ?_, encoded_of_lookup (op := .movar) ?_,
    encoded_of_lookup (op := .movrj) ?_, encoded_of_lookup (op := .movjr) ?_, encoded_of_lookup (op := .movaj) ?_,
    encoded_of_lookup (op := .movja) ?_, encoded_of_lookup (op := .ldi) ?_, encoded_of_lookup (op := .ldia) ?_,
    encoded_of_lookup (op := .ldij) ?_, encoded_of_lookup (op := .ld) ?_, encoded_of_lookup (op := .lda) ?_,
    encoded_of_lookup (op := .ldj) ?_, encoded_of_lookup (op := .st) ?_, encoded_of_lookup (op := .sta) ?_,
    encoded_of_lookup (op := .stj) ?_⟩ <;> decide

theorem arithmeticEncodings_hold : arithmeticEncodings := by
  refine ⟨encoded_of_lookup (op := .add) ?_, encoded_of_lookup (op := .addar) ?_, encoded_of_lookup (op := .addaj) ?_,
    encoded_of_lookup (op := .sub) ?_, encoded_of_lookup (op := .subar) ?_, encoded_of_lookup (op := .subaj) ?_,
    encoded_of_lookup (op := .mult) ?_, encoded_of_lookup (op := .multar) ?_, encoded_of_lookup (op := .multaj) ?_,
    encoded_of_lookup (op := .div) ?_, encoded_of_lookup (op := .divar) ?_, encoded_of_lookup (op := .divaj) ?_,
    encoded_of_lookup (op := .mod) ?_, encoded_of_lookup (op := .modar) ?_, encoded_of_lookup (op := .modaj) ?_⟩ <;> decide

theorem bitwiseEncodings_hold : bitwiseEncodings := by
  refine ⟨encoded_of_lookup (op := .and) ?_, encoded_of_lookup (op := .andar) ?_, encoded_of_lookup (op := .andaj) ?_,
    encoded_of_lookup (op := .or) ?_, encoded_of_lookup (op := .orar) ?_, encoded_of_lookup (op := .oraj) ?_,
    encoded_of_lookup (op := .not) ?_, encoded_of_lookup (op := .nota) ?_, encoded_of_lookup (op := .notj) ?_,
    encoded_of_lookup (op := .shl) ?_, encoded_of_lookup (op := .shlar) ?_, encoded_of_lookup (op := .shlaj) ?_,
    encoded_of_lookup (op := .shr) ?_, encoded_of_lookup (op := .shrar) ?_, encoded_of_lookup (op := .shraj) ?_⟩ <;> decide

theorem compareEncodings_hold : compareEncodings := by
  refine ⟨encoded_of_lookup (op := .cmp) ?_, encoded_of_lookup (op := .cmpar) ?_, encoded_of_lookup (op := .cmpaj) ?_,
    encoded_of_lookup (op := .cmprm) ?_, encoded_of_lookup (op := .cmpam) ?_⟩ <;> decide

theorem branchEncodings_hold : branchEncodings := by
  refine ⟨encoded_of_lookup (op := .bran) ?_, encoded_of_lookup (op := .brlt) ?_, encoded_of_lookup (op := .breq) ?_,
    encoded_of_lookup (op := .brgt) ?_, encoded_of_lookup (op := .brle) ?_, encoded_of_lookup (op := .brge) ?_,
    encoded_of_lookup (op := .brgl) ?_⟩ <;> decide

theorem callEncodings_hold : callEncodings :=
  ⟨encoded_of_lookup (op := .call) (by decide), encoded_of_lookup (op := .ret) (by decide)⟩

theorem consoleEncodings_hold : consoleEncodings := by
  simp only [consoleEncodings, ← fmtOf_eq_ofBool]
  exact ⟨encoded_of_lookup (op := .wrw) (by decide), encoded_of_lookup (op := .wrwa) (by decide),
    encoded_of_lookup (op := .rdw) (by decide), encoded_of_lookup (op := .rdwa) (by decide)⟩

theorem diskEncodings_hold : diskEncodings :=
  ⟨encoded_of_lookup (op := .openSlot) (by decide), encoded_of_lookup (op := .closeSlot) (by decide),
    encoded_of_lookup (op := .fread) (by decide), encoded_of_lookup (op := .fwrite) (by decide)⟩

/-- Settles O4: one row of the default table for each operation. -/
theorem defaultOpcodeTable : Obligations.DefaultOpcodeTable :=
  ⟨haltEncodings_hold, moveEncodings_hold, arithmeticEncodings_hold, bitwiseEncodings_hold, compareEncodings_hold,
    branchEncodings_hold, callEncodings_hold, consoleEncodings_hold, diskEncodings_hold⟩

/-! ## The unassigned opcodes -/

/-- A word is rejected exactly where the table has no row for its opcode (R79). -/
theorem decode_eq_error_iff {d : Dispatch} {w : Word} :
    decode d w = .error (.unassignedOpcode (fieldsOf w).op) ↔ d.lookup (fieldsOf w).op = none := by
  refine ⟨fun h => ?_, decode_of_lookup_none⟩
  cases hl : d.lookup (fieldsOf w).op with
  | none => rfl
  | some op => rw [decode_of_lookup hl] at h; cases h

/-- An opcode number outside the blocks of R78. -/
abbrev OutsideBlocks (n : Nat) : Prop :=
  n = 0 ∨ (3 ≤ n ∧ n ≤ 0x0F) ∨ n = 0x17 ∨ (0x1B ≤ n ∧ n ≤ 0x1F) ∨ (0x23 ≤ n ∧ n ≤ 0x27) ∨
    (0x2B ≤ n ∧ n ≤ 0x2F) ∨ n = 0x33 ∨ n = 0x37 ∨ n = 0x3B ∨ n = 0x3F ∨ (0x43 ≤ n ∧ n ≤ 0x4F) ∨ n = 0x53 ∨
    n = 0x57 ∨ n = 0x5B ∨ n = 0x5F ∨ (0x63 ≤ n ∧ n ≤ 0x6F) ∨ (0x75 ≤ n ∧ n ≤ 0x7F) ∨ (0x87 ≤ n ∧ n ≤ 0x8F) ∨
    (0x92 ≤ n ∧ n ≤ 0x9F) ∨ (0xA4 ≤ n ∧ n ≤ 0xAF) ∨ 0xB4 ≤ n

/-- The 256 opcodes compared with the blocks, by their two hexadecimal digits. -/
theorem lookup_digits_eq_none_iff : ∀ hi lo : Fin 16,
    Dispatch.default.lookup (BitVec.ofNat 8 (16 * hi.val + lo.val)) = none ↔ OutsideBlocks (16 * hi.val + lo.val) := by
  decide

theorem lookup_eq_none_iff_outsideBlocks (o : Opcode) :
    Dispatch.default.lookup o = none ↔ OutsideBlocks o.toNat := by
  have hlt := o.isLt
  have hdigits : 16 * (o.toNat / 16) + o.toNat % 16 = o.toNat := by omega
  have h := lookup_digits_eq_none_iff ⟨o.toNat / 16, by omega⟩ ⟨o.toNat % 16, by omega⟩
  simp only [hdigits] at h
  rwa [BitVec.ofNat_toNat, BitVec.setWidth_eq] at h

/-- Settles O5: rejection is a missing row, and the rows leave out exactly the opcodes outside the blocks. -/
theorem unassignedOpcodesRejectedByName : Obligations.UnassignedOpcodesRejectedByName := by
  rintro w _ rfl
  exact decode_eq_error_iff.trans (lookup_eq_none_iff_outsideBlocks (fieldsOf w).op)

/-! ## Decode, then encode, under the default table -/

@[simp] theorem instr_op (op : Op) (f : Fields) : (op.instr f).op = op := by
  cases op <;> rfl

/-- The opcode a decoded instruction carries, if it carries one, is that of its word (R233, R234). -/
theorem instr_carriedOpcode {op : Op} {f : Fields} {c : Opcode} (h : (op.instr f).carriedOpcode = some c) : c = f.op := by
  cases op with
  | fread | fwrite => exact (Option.some.inj h).symm
  | _ => cases h

/-- Everything a word that decodes is: a row of the table and what its operation makes of the fields. -/
theorem exists_lookup_of_decode {d : Dispatch} {w : Word} {i : Instr} (h : decode d w = .ok i) :
    d.lookup (fieldsOf w).op = some i.op ∧ i = i.op.instr (fieldsOf w) := by
  cases hl : d.lookup (fieldsOf w).op with
  | none => rw [decode_of_lookup_none hl] at h; cases h
  | some op =>
    rw [decode_of_lookup hl] at h
    cases h
    rw [instr_op]
    exact ⟨rfl, rfl⟩

/-- A row that is looked up is in the table. -/
theorem mem_of_lookup {d : Dispatch} {o : Opcode} {op : Op} (h : d.lookup o = some op) : (o, op) ∈ d := by
  simp only [Dispatch.lookup, Option.map_eq_some_iff] at h
  obtain ⟨row, hfind, rfl⟩ := h
  have ho : row.1 = o := by simpa using List.find?_some hfind
  exact ho ▸ List.mem_of_find?_eq_some hfind

/-- The default table names no operation twice, so an operation has one opcode (R78). -/
theorem opcode_unique {o o' : Opcode} {op : Op} (h : Dispatch.default.lookup o = some op)
    (h' : Dispatch.default.lookup o' = some op) : o = o' := by
  have hnodup : (Dispatch.default.map (·.2)).Nodup := by decide
  exact congrArg Prod.fst (List.inj_on_of_nodup_map hnodup (mem_of_lookup h) (mem_of_lookup h') rfl)

theorem wellFormed_of_decode {d : Dispatch} {w : Word} {i : Instr} (h : decode d w = .ok i) : i.wellFormed d = true := by
  obtain ⟨hlookup, hi⟩ := exists_lookup_of_decode h
  have hassigned : i.assigned d = true := by
    simp only [Instr.assigned, List.any_eq_true]
    exact ⟨_, mem_of_lookup hlookup, by simp [hlookup]⟩
  have hcarries : i.carriesItsOpcode d = true := by
    unfold Instr.carriesItsOpcode
    split
    · next c hc =>
      rw [hi] at hc
      simpa [instr_carriedOpcode hc] using hlookup
    · rfl
  simp [Instr.wellFormed, hassigned, hcarries]

/-- The four fields determine the word (R71). -/
theorem fieldsOf_injective {v w : Word} (h : fieldsOf v = fieldsOf w) : v = w := by
  obtain ⟨v0, v1, v2, v3⟩ := fieldsOf_toNat v
  obtain ⟨w0, w1, w2, w3⟩ := fieldsOf_toNat w
  rw [h] at v0 v1 v2 v3
  apply BitVec.eq_of_toNat_eq
  omega

theorem fieldsOf_and (v w : Word) :
    fieldsOf (v &&& w) =
      ⟨(fieldsOf v).op &&& (fieldsOf w).op, (fieldsOf v).a1 &&& (fieldsOf w).a1,
        (fieldsOf v).a2 &&& (fieldsOf w).a2, (fieldsOf v).a3 &&& (fieldsOf w).a3⟩ := by
  simp only [fieldsOf, BitVec.extractLsb'_and]

theorem fmtOf_zeroExtend_and (a2 : BitVec 4) : (fmtOf a2).zeroExtend 4 &&& a2 = (fmtOf a2).zeroExtend 4 := by
  revert a2
  decide

/-- The fields of a decoded instruction are those of its word, or 0 where its form ignores them (R77). -/
theorem fields_instr_and (op : Op) (f : Fields) :
    ((op.instr f).fields f.op).a1 &&& f.a1 = ((op.instr f).fields f.op).a1 ∧
      ((op.instr f).fields f.op).a2 &&& f.a2 = ((op.instr f).fields f.op).a2 ∧
      ((op.instr f).fields f.op).a3 &&& f.a3 = ((op.instr f).fields f.op).a3 := by
  cases op with
  | wrw | wrwa | rdw | rdwa => exact ⟨by simp [Op.instr, Instr.fields], fmtOf_zeroExtend_and f.a2, BitVec.zero_and⟩
  | _ => simp [Op.instr, Instr.fields]

/-- Settles O7: the decoded instruction is encoded under the opcode of its word, which is the only one of its operation, with
that word's fields or zeros. -/
theorem decodedWordsReencode : Obligations.DecodedWordsReencode := by
  intro w i h
  obtain ⟨hlookup, hi⟩ := exists_lookup_of_decode h
  have hwf := wellFormed_of_decode h
  obtain ⟨o, hopcode, ho, hcarried⟩ := opcodeIn_of_wellFormed hwf
  obtain rfl := opcode_unique ho hlookup
  have hfields : fieldsOf (wordOf (i.fields (fieldsOf w).op)) = i.fields (fieldsOf w).op := fieldsOf_wordOf _
  obtain ⟨h1, h2, h3⟩ := fields_instr_and i.op (fieldsOf w)
  rw [← hi] at h1 h2 h3
  refine ⟨hwf, wordOf (i.fields (fieldsOf w).op), by rw [encode, hopcode]; rfl, decode_wordOf_fields ho hcarried,
    by rw [hfields, fields_op], fieldsOf_injective ?_⟩
  rw [fieldsOf_and, hfields, h1, h2, h3, fields_op, BitVec.and_self]
  exact Fields.ext_toNat (by rw [fields_op]) rfl rfl rfl

/-- Settles O8: each of the ten words is evaluated through its row of the table. -/
theorem writtenOutWordsDecode : Obligations.WrittenOutWordsDecode := by
  refine ⟨?_, ?_, ?_, ?_, ?_, ?_, ?_, ?_, ?_, ?_⟩ <;> decide

end Sys2Proof.Proofs.Dispatch
end

section
/-!
PROOFS. The instructions as twenty actions (spec files `41` to `49`): every instruction is one of the shared operations of the model
on its own operands, so what an action reads and writes is proved once for the action, and a fact about all instructions is a
fact about twenty actions and a table.
-/

namespace Sys2Proof.Proofs.Actions

open Sys2Proof.Machine Sys2Proof.Claims

/-! ## Calls and returns by the slot they use -/

/-- The state after a push into slot `k`, which was the first free one (R208). -/
def pushed (s : State) (k : Fin 100) (v : Word) : State :=
  { s with cstack := s.cstack.set k.val v, top := k.succ }

/-- The state after an `END` that takes the link from slot `k`, which was the last used one (R207, R208). -/
def popped (s : State) (k : Fin 100) : State :=
  { s with ic := s.jmp, jmp := s.cstack[k.val], top := k.castSucc }

theorem callTo_outermost {s : State} (h : s.jmp = 0) (a : Arg16) : s.callTo a = s.linkAndGo a := by
  rcases s.callTo_cases a with ⟨-, e⟩ | ⟨hne, -⟩ | ⟨hne, -⟩
  · exact e
  all_goals exact absurd h hne

theorem callTo_room {s : State} {k : Fin 100} (h : s.jmp ≠ 0) (hk : s.top.val = k.val) (a : Arg16) :
    s.callTo a = (pushed s k s.jmp).linkAndGo a := by
  rcases s.callTo_cases a with ⟨hz, -⟩ | ⟨-, t, ht, e⟩ | ⟨-, hfull, -⟩
  · exact absurd hz h
  · rw [e]
    obtain ⟨-, rfl⟩ := State.push_some ht
    simp only [hk]
    rfl
  · omega

theorem callTo_full {s : State} (h : s.jmp ≠ 0) (hfull : s.top.val = 100) (a : Arg16) :
    s.callTo a = s.abort .cstackOob := by
  rcases s.callTo_cases a with ⟨hz, -⟩ | ⟨-, t, ht, -⟩ | ⟨-, -, e⟩
  · exact absurd hz h
  · rw [State.push_eq_none.2 hfull] at ht
    cases ht
  · exact e

theorem returnFromCall_popped {s : State} {k : Fin 100} (hk : s.top.val = k.val + 1) :
    s.returnFromCall = popped s k := by
  rw [State.returnFromCall_pop (by omega)]
  simp only [hk, Nat.add_sub_cancel]
  rfl

/-! ## The actions -/

/-- What an instruction does, with its operands: the shared operations of the model, the arithmetic ones with their functions. -/
inductive Action where
  | halt
  | halte
  | copy (dst src : Place)
  | imm (dst : Place) (v : Arg16)
  | load (dst : Place) (a : Arg16)
  | store (src : Place) (a : Arg16)
  | narrow (z : Int → Int → Int) (ovf : Int → Int → Bool) (p q : Place)
  | divide (f : Int → Int → Int) (p q : Place)
  | bitwise (f : Word → Word → Word) (p q : Place)
  | compare (p q : Place)
  | compareMem (p : Place) (a : Arg16)
  | jump (a : Arg16)
  | branch (cond : Bool → Bool → Bool → Bool) (a : Arg16)
  | call (a : Arg16)
  | ret
  | write (f : Fmt) (src : Place)
  | read (dst : Place) (f : Fmt)
  | openSlot (n : Slot)
  | closeSlot (n : Slot)
  | stub (o : Opcode)

/-- The state an action leaves. -/
def Action.run (s : State) : Action → State
  | halt => s.haltAs .haltedOk
  | halte => s.haltAs .haltedError
  | copy dst src => s.put dst (s.get src)
  | imm dst v => s.put dst (immediate v)
  | load dst a => s.load dst a
  | store src a => s.store src a
  | narrow z ovf p q =>
    (s.setOvf (ovf (signed (s.get p)) (signed (s.get q)))).put .a (wrap32 (z (signed (s.get p)) (signed (s.get q))))
  | divide f p q => s.divideOp f p q
  | bitwise f p q => s.put .a (f (s.get p) (s.get q))
  | compare p q => s.compareOp p q
  | compareMem p a => s.compareMem p a
  | jump a => s.branchIf true a
  | branch cond a => s.branchIf (cond s.flagLt s.flagEq s.flagGt) a
  | call a => s.callTo a
  | ret => s.returnFromCall
  | write f src => s.conOut f (s.get src)
  | read dst f => s.consoleRead dst f
  | openSlot n => s.openHandle n
  | closeSlot n => s.closeHandle n
  | stub o => s.reportNotImplemented o

/-- Addition with its overflow (R131). -/
abbrev addAction : Place → Place → Action := .narrow (fun a b => a + b) fun a b => outOfRange (a + b)

/-- Subtraction with its overflow (R131). -/
abbrev subAction : Place → Place → Action := .narrow (fun a b => a - b) fun a b => outOfRange (a - b)

/-- Multiplication with its overflow (R132). -/
abbrev multAction : Place → Place → Action := .narrow (fun a b => a * b) multOverflow

/-- A left shift (R157). -/
abbrev shlAction : Place → Place → Action := .bitwise fun v w => wrap32 (signed v * 2 ^ shiftAmount w)

/-- An arithmetic right shift (R157). -/
abbrev shrAction : Place → Place → Action := .bitwise fun v w => wrap32 (Int.fdiv (signed v) (2 ^ shiftAmount w))

/-- A negation of one operand (R156). -/
abbrev notAction (p : Place) : Action := .bitwise (fun v _ => ~~~v) p p

/-- The action of an instruction. -/
def actionOf : Instr → Action
  | .halt => .halt
  | .halte => .halte
  | .mov ra rb => .copy (.r ra) (.r rb)
  | .movra ra => .copy (.r ra) .a
  | .movar ra => .copy .a (.r ra)
  | .movrj ra => .copy (.r ra) .j
  | .movjr ra => .copy .j (.r ra)
  | .movaj => .copy .a .j
  | .movja => .copy .j .a
  | .ldi rd v => .imm (.r rd) v
  | .ldia v => .imm .a v
  | .ldij v => .imm .j v
  | .ld ra a => .load (.r ra) a
  | .lda a => .load .a a
  | .ldj a => .load .j a
  | .st ra a => .store (.r ra) a
  | .sta a => .store .a a
  | .stj a => .store .j a
  | .add ra rb => addAction (.r ra) (.r rb)
  | .addar ra => addAction .a (.r ra)
  | .addaj => addAction .a .j
  | .sub ra rb => subAction (.r ra) (.r rb)
  | .subar ra => subAction .a (.r ra)
  | .subaj => subAction .a .j
  | .mult ra rb => multAction (.r ra) (.r rb)
  | .multar ra => multAction .a (.r ra)
  | .multaj => multAction .a .j
  | .div ra rb => .divide Int.tdiv (.r ra) (.r rb)
  | .divar ra => .divide Int.tdiv .a (.r ra)
  | .divaj => .divide Int.tdiv .a .j
  | .mod ra rb => .divide Int.tmod (.r ra) (.r rb)
  | .modar ra => .divide Int.tmod .a (.r ra)
  | .modaj => .divide Int.tmod .a .j
  | .and ra rb => .bitwise (· &&& ·) (.r ra) (.r rb)
  | .andar ra => .bitwise (· &&& ·) .a (.r ra)
  | .andaj => .bitwise (· &&& ·) .a .j
  | .or ra rb => .bitwise (· ||| ·) (.r ra) (.r rb)
  | .orar ra => .bitwise (· ||| ·) .a (.r ra)
  | .oraj => .bitwise (· ||| ·) .a .j
  | .not ra => notAction (.r ra)
  | .nota => notAction .a
  | .notj => notAction .j
  | .shl ra rb => shlAction (.r ra) (.r rb)
  | .shlar ra => shlAction .a (.r ra)
  | .shlaj => shlAction .a .j
  | .shr ra rb => shrAction (.r ra) (.r rb)
  | .shrar ra => shrAction .a (.r ra)
  | .shraj => shrAction .a .j
  | .cmp ra rb => .compare (.r ra) (.r rb)
  | .cmpar ra => .compare .a (.r ra)
  | .cmpaj => .compare .a .j
  | .cmprm ra a => .compareMem (.r ra) a
  | .cmpam a => .compareMem .a a
  | .bran a => .jump a
  | .brlt a => .branch (fun lt _ _ => lt) a
  | .breq a => .branch (fun _ eq _ => eq) a
  | .brgt a => .branch (fun _ _ gt => gt) a
  | .brle a => .branch (fun lt eq _ => lt || eq) a
  | .brge a => .branch (fun _ eq gt => gt || eq) a
  | .brgl a => .branch (fun lt _ gt => gt || lt) a
  | .call a => .call a
  | .ret => .ret
  | .wrw ra f => .write f (.r ra)
  | .wrwa f => .write f .a
  | .rdw ra f => .read (.r ra) f
  | .rdwa f => .read .a f
  | .openSlot n => .openSlot n
  | .closeSlot n => .closeSlot n
  | .fread o => .stub o
  | .fwrite o => .stub o

/-- Every instruction runs its action: what ties the actions to the model. -/
theorem exec_eq_run (i : Instr) (s : State) : exec i s = .next ((actionOf i).run s) := by
  cases i <;> rfl

theorem eq_run_of_exec {i : Instr} {s t : State} (he : exec i s = .next t) : t = (actionOf i).run s := by
  rw [exec_eq_run] at he
  cases he
  rfl

/-! ## What an action writes -/

/-- All slots of the call stack. -/
def allSlots : List StatePart := (List.finRange 100).map .slot

@[simp] theorem slot_mem_allSlots (k : Fin 100) : StatePart.slot k ∈ allSlots := by
  simp [allSlots]

theorem mem_allSlots {p : StatePart} : p ∈ allSlots ↔ ∃ k, p = .slot k := by
  simp [allSlots, eq_comm]

/-- The parts of the state an action may write, those of an abort among them. -/
def Action.writes : Action → List StatePart
  | halt => [.run]
  | halte => [.run]
  | copy dst _ => [dst.part]
  | imm dst _ => [dst.part]
  | load dst _ => [dst.part, .run, .cause]
  | store _ a => [.word (dataAddress a), .run, .cause]
  | narrow _ _ _ _ => [.acc, .ovf]
  | divide _ _ _ => [.acc, .dbz]
  | bitwise _ _ _ => [.acc]
  | compare _ _ => [.lt, .eq, .gt]
  | compareMem _ _ => [.lt, .eq, .gt, .run, .cause]
  | jump _ => [.ic]
  | branch _ _ => [.ic]
  | call _ => .jmp :: .ic :: .top :: .run :: .cause :: allSlots
  | ret => [.ic, .jmp, .top, .slot 0]
  | write _ _ => [.conout]
  | read dst _ => [dst.part, .ioerr, .env]
  | openSlot n => [.handle n, .ioerr, .env]
  | closeSlot n => [.handle n, .env]
  | stub _ => [.diag]

theorem load_changes (s : State) (dst : Place) (a : Arg16) :
    OnlyChanges [dst.part, .run, .cause] s (s.load dst a) := by
  rcases Nat.lt_or_ge (dataAddress a) s.cfg.memSize with h | h
  · rw [s.load_inside dst h]
    exact (s.put_changes dst _).mono (by simp)
  · rw [s.load_outside dst h]
    exact (s.abort_changes _).mono (by simp)

theorem store_changes_or_aborts (s : State) (src : Place) (a : Arg16) :
    OnlyChanges [.word (dataAddress a), .run, .cause] s (s.store src a) := by
  rcases Nat.lt_or_ge (dataAddress a) s.cfg.memSize with h | h
  · exact (s.store_changes src h).mono (by simp)
  · rw [s.store_outside src h]
    exact (s.abort_changes _).mono (by simp)

theorem compareMem_changes (s : State) (p : Place) (a : Arg16) :
    OnlyChanges [.lt, .eq, .gt, .run, .cause] s (s.compareMem p a) := by
  rcases Nat.lt_or_ge (dataAddress a) s.cfg.memSize with h | h
  · rw [s.compareMem_inside p h]
    exact (s.compare_changes _ _).mono (by simp)
  · rw [s.compareMem_outside p h]
    exact (s.abort_changes _).mono (by simp)

theorem pushed_changes (s : State) (k : Fin 100) (v : Word) : OnlyChanges [.top, .slot k] s (pushed s k v) := by
  intro p hp
  cases p with
  | top => simp at hp
  | slot j => exact cstack_set_changes s k v (.slot j) (by simpa using hp)
  | _ => rfl

theorem popped_changes (s : State) (k : Fin 100) : OnlyChanges [.ic, .jmp, .top] s (popped s k) := by
  intro p hp
  cases p with
  | ic | jmp | top => simp at hp
  | _ => rfl

/-- A call into the free slot `k` (R206, R208). -/
theorem pushed_linkAndGo_changes (s : State) (k : Fin 100) (v : Word) (a : Arg16) :
    OnlyChanges [.jmp, .ic, .top, .slot k] s ((pushed s k v).linkAndGo a) :=
  ((pushed_changes s k v).trans (State.linkAndGo_changes _ a)).mono (by simp)

theorem callTo_changes (s : State) (a : Arg16) :
    OnlyChanges (.jmp :: .ic :: .top :: .run :: .cause :: allSlots) s (s.callTo a) := by
  by_cases hz : s.jmp = 0
  · rw [callTo_outermost hz]
    exact (s.linkAndGo_changes a).mono (by simp)
  by_cases hfull : s.top.val = 100
  · rw [callTo_full hz hfull]
    exact (s.abort_changes _).mono (by simp)
  · rw [callTo_room (k := ⟨s.top.val, by omega⟩) hz rfl]
    exact (pushed_linkAndGo_changes s _ _ a).mono (by simp)

/-- An `END` on an empty stack writes the counter, the link and slot 0 (R207). -/
theorem returnFromCall_empty_changes {s : State} (h : s.top.val = 0) :
    OnlyChanges [.ic, .jmp, .slot 0] s s.returnFromCall := by
  rw [State.returnFromCall_empty h]
  intro p hp
  cases p with
  | ic | jmp => simp at hp
  | slot k => exact cstack_set_changes s 0 0 (.slot k) (by simpa using hp)
  | _ => rfl

/-- Every used slot is slot `k` for the counter `k + 1`. -/
theorem exists_top_eq_succ {s : State} (h : s.top.val ≠ 0) : ∃ k : Fin 100, s.top.val = k.val + 1 :=
  ⟨⟨s.top.val - 1, by omega⟩, by simp only; omega⟩

theorem returnFromCall_changes (s : State) : OnlyChanges [.ic, .jmp, .top, .slot 0] s s.returnFromCall := by
  by_cases h : s.top.val = 0
  · exact (returnFromCall_empty_changes h).mono (by simp)
  · obtain ⟨k, hk⟩ := exists_top_eq_succ h
    rw [returnFromCall_popped hk]
    exact (popped_changes s k).mono (by simp)

theorem closeHandle_changes (s : State) (n : Slot) : OnlyChanges [.handle n, .env] s (s.closeHandle n) := by
  cases h : s.readHandle n with
  | true =>
    rw [s.closeHandle_open h]
    exact ((s.ask_changes _).trans (State.writeHandle_changes _ n false)).mono (by simp)
  | false =>
    rw [s.closeHandle_closed h]
    exact OnlyChanges.refl _ s

/-- A register operand is none of the other parts of the state. -/
@[simp] theorem eq_part_iff_false {p : Place} {q : StatePart} (hreg : ∀ n, q ≠ .reg n) (hacc : q ≠ .acc) (hjmp : q ≠ .jmp) :
    q = p.part ↔ False := by
  cases p with
  | r n => simpa [Place.part] using hreg n
  | a => simpa [Place.part] using hacc
  | j => simpa [Place.part] using hjmp

/-- The frame of every action. -/
theorem run_changes (a : Action) (s : State) : OnlyChanges a.writes s (a.run s) := by
  cases a with
  | halt => exact s.haltAs_changes _
  | halte => exact s.haltAs_changes _
  | copy dst src => exact s.put_changes dst _
  | imm dst v => exact s.put_changes dst _
  | load dst a => exact load_changes s dst a
  | store src a => exact store_changes_or_aborts s src a
  | narrow z ovf p q => exact s.setOvf_put_changes _ _
  | divide f p q => exact s.divideOp_changes f p q
  | bitwise f p q => exact s.put_changes .a _
  | compare p q => exact s.compare_changes _ _
  | compareMem p a => exact compareMem_changes s p a
  | jump a => exact s.branchIf_changes true a
  | branch cond a => exact s.branchIf_changes _ a
  | call a => exact callTo_changes s a
  | ret => exact returnFromCall_changes s
  | write f src => exact s.conOut_changes f _
  | read dst f => exact s.consoleRead_changes dst f
  | openSlot n => exact s.openHandle_changes n
  | closeSlot n => exact closeHandle_changes s n
  | stub o => exact s.report_changes _

/-- An instruction leaves every part that its action does not write. -/
theorem exec_same {i : Instr} {s t : State} (he : exec i s = .next t) {p : StatePart} (hp : p ∉ (actionOf i).writes) :
    p.Same s t :=
  eq_run_of_exec he ▸ run_changes (actionOf i) s p hp

end Sys2Proof.Proofs.Actions
end

section
/-!
PROOFS. What an action reads (spec `10_state.md` R20 to R40, `60_exceptions.md` section 4): two states that agree on what an action
reads, and off a set of parts, agree off that set after it. This is the one comparison of two executions; each rule about who
reads a part of the state is a special case.
-/

namespace Sys2Proof.Proofs.Reads

open Sys2Proof.Machine Sys2Proof.Claims Sys2Proof.Proofs.Actions Sys2Proof.Proofs.Branch

/-- The two states agree on every part off `P`; `OnlyChanges` for a predicate in place of a list. -/
def AgreeOff (P : StatePart → Prop) (s s' : State) : Prop :=
  ∀ p, ¬P p → p.Same s s'

theorem same_symm {p : StatePart} {s t : State} (h : p.Same s t) : p.Same t s := by
  cases p <;> exact Eq.symm h

section
variable {P : StatePart → Prop} {s s' : State}

/-! ## Reading -/

theorem AgreeOff.get (h : AgreeOff P s s') {p : Place} (hp : ¬P p.part) : s'.get p = s.get p := by
  cases p with
  | r n => exact h (.reg n) hp
  | a => exact h .acc hp
  | j => exact h .jmp hp

theorem AgreeOff.cfg (h : AgreeOff P s s') (hc : ¬P .cfg) : s'.cfg = s.cfg := h .cfg hc

theorem AgreeOff.sent (h : AgreeOff P s s') (henv : ¬P .env) (hcon : ¬P .conout) (hdiag : ¬P .diag) : s'.sent = s.sent := by
  have h1 : s'.envLog = s.envLog := h .env henv
  have h2 : s'.conout = s.conout := h .conout hcon
  have h3 : s'.diag = s.diag := h .diag hdiag
  simp only [State.sent, h1, h2, h3]

/-! ## The same update in both states -/

/-- Agreement is kept by two updates with one frame that agree on what they write. -/
theorem AgreeOff.of_changes (h : AgreeOff P s s') {ps : List StatePart} {t t' : State} (ht : OnlyChanges ps s t)
    (ht' : OnlyChanges ps s' t') (hw : ∀ p ∈ ps, ¬P p → p.Same t t') : AgreeOff P t t' := by
  intro p hp
  by_cases hmem : p ∈ ps
  · exact hw p hmem hp
  · exact ((same_symm (ht p hmem)).trans (h p hp)).trans (ht' p hmem)

theorem AgreeOff.put (h : AgreeOff P s s') (p : Place) (v : Word) : AgreeOff P (s.put p v) (s'.put p v) := by
  refine h.of_changes (s.put_changes p v) (s'.put_changes p v) ?_
  simp only [List.mem_singleton, forall_eq]
  intro _
  have hget : (s'.put p v).get p = (s.put p v).get p := by rw [State.get_put_same, State.get_put_same]
  cases p <;> exact hget

theorem AgreeOff.abort (h : AgreeOff P s s') (c : AbortCause) : AgreeOff P (s.abort c) (s'.abort c) :=
  h.of_changes (s.abort_changes c) (s'.abort_changes c) (by simp [StatePart.Same])

theorem AgreeOff.haltAs (h : AgreeOff P s s') (r : RunState) : AgreeOff P (s.haltAs r) (s'.haltAs r) :=
  h.of_changes (s.haltAs_changes r) (s'.haltAs_changes r) (by simp [StatePart.Same])

theorem AgreeOff.setOvf (h : AgreeOff P s s') (b : Bool) : AgreeOff P (s.setOvf b) (s'.setOvf b) :=
  h.of_changes (s.setOvf_changes b) (s'.setOvf_changes b) (by simp [StatePart.Same])

theorem AgreeOff.setDbz (h : AgreeOff P s s') (b : Bool) : AgreeOff P (s.setDbz b) (s'.setDbz b) :=
  h.of_changes (s.setDbz_changes b) (s'.setDbz_changes b) (by simp [StatePart.Same])

theorem AgreeOff.setIoerr (h : AgreeOff P s s') (b : Bool) : AgreeOff P (s.setIoerr b) (s'.setIoerr b) :=
  h.of_changes (s.setIoerr_changes b) (s'.setIoerr_changes b) (by simp [StatePart.Same])

theorem AgreeOff.compare (h : AgreeOff P s s') (p q : Word) : AgreeOff P (s.compare p q) (s'.compare p q) :=
  h.of_changes (s.compare_changes p q) (s'.compare_changes p q) (by simp [StatePart.Same])

theorem AgreeOff.setIc (h : AgreeOff P s s') (w : Word) : AgreeOff P { s with ic := w } { s' with ic := w } :=
  h.of_changes (setIc_changes s w) (setIc_changes s' w) (by simp [StatePart.Same])

theorem AgreeOff.branchIf (h : AgreeOff P s s') (taken : Bool) (a : Arg16) :
    AgreeOff P (s.branchIf taken a) (s'.branchIf taken a) := by
  refine h.of_changes (s.branchIf_changes taken a) (s'.branchIf_changes taken a) ?_
  simp only [List.mem_singleton, forall_eq]
  intro hic
  have hsame : s'.ic = s.ic := h .ic hic
  simp only [StatePart.Same, State.branchIf_ic, hsame]

theorem AgreeOff.report (h : AgreeOff P s s') (e : DiagEvent) : AgreeOff P (s.report e) (s'.report e) := by
  refine h.of_changes (s.report_changes e) (s'.report_changes e) ?_
  simp only [List.mem_singleton, forall_eq]
  exact fun hdiag => congrArg (· ++ [e]) (h .diag hdiag)

theorem AgreeOff.conOut (h : AgreeOff P s s') (f : Fmt) (w : Word) : AgreeOff P (s.conOut f w) (s'.conOut f w) := by
  refine h.of_changes (s.conOut_changes f w) (s'.conOut_changes f w) ?_
  simp only [List.mem_singleton, forall_eq]
  exact fun hcon => congrArg (· ++ [(⟨f, w⟩ : ConEvent)]) (h .conout hcon)

theorem AgreeOff.ask (h : AgreeOff P s s') (r : EnvRequest) : AgreeOff P (s.ask r) (s'.ask r) := by
  refine h.of_changes (s.ask_changes r) (s'.ask_changes r) ?_
  simp only [List.mem_singleton, forall_eq]
  exact fun henv => congrArg (· ++ [r]) (h .env henv)

theorem AgreeOff.writeHandle (h : AgreeOff P s s') (n : Slot) (b : Bool) :
    AgreeOff P (s.writeHandle n b) (s'.writeHandle n b) :=
  h.of_changes (s.writeHandle_changes n b) (s'.writeHandle_changes n b)
    (by simp [StatePart.Same, State.readHandle_writeHandle])

theorem AgreeOff.linkAndGo (h : AgreeOff P s s') (hic : s'.ic = s.ic) (a : Arg16) :
    AgreeOff P (s.linkAndGo a) (s'.linkAndGo a) :=
  h.of_changes (s.linkAndGo_changes a) (s'.linkAndGo_changes a) (by simp [StatePart.Same, hic])

theorem AgreeOff.pushed (h : AgreeOff P s s') (k : Fin 100) (v : Word) :
    AgreeOff P (Actions.pushed s k v) (Actions.pushed s' k v) :=
  h.of_changes (pushed_changes s k v) (pushed_changes s' k v) (by simp [StatePart.Same, Actions.pushed])

/-! ## The shared operations that read more than their operands -/

theorem AgreeOff.memWrite (h : AgreeOff P s s') (hcfg : ¬P .cfg) (a : Nat) (v : Word) :
    AgreeOff P (s.memWrite a v) (s'.memWrite a v) := by
  have hsize : s'.cfg = s.cfg := h.cfg hcfg
  rcases Nat.lt_or_ge a s.cfg.memSize with hlt | hge
  · have hlt' : a < s'.cfg.memSize := hsize ▸ hlt
    refine h.of_changes (State.memWrite_changes v hlt) (State.memWrite_changes v hlt') ?_
    simp [StatePart.Same, State.memWrite_of_lt hlt, State.memWrite_of_lt hlt']
  · rw [State.memWrite_of_ge hge, State.memWrite_of_ge (hsize ▸ hge)]
    exact h.abort _

theorem AgreeOff.withMemRead (h : AgreeOff P s s') (hcfg : ¬P .cfg) {a : Nat} (hword : ¬P (.word a)) {k k' : Word → State}
    (hk : ∀ v, AgreeOff P (k v) (k' v)) : AgreeOff P (s.withMemRead a k) (s'.withMemRead a k') := by
  have hsize : s'.cfg = s.cfg := h.cfg hcfg
  have hread : s'.mem.read a = s.mem.read a := h (.word a) hword
  rcases Nat.lt_or_ge a s.cfg.memSize with hlt | hge
  · rw [State.withMemRead_of_lt hlt, State.withMemRead_of_lt (hsize ▸ hlt), hread]
    exact hk _
  · rw [State.withMemRead_of_ge hge, State.withMemRead_of_ge (hsize ▸ hge)]
    exact h.abort _

theorem AgreeOff.divideOp (h : AgreeOff P s s') (f : Int → Int → Int) {p q : Place} (hp : ¬P p.part) (hq : ¬P q.part) :
    AgreeOff P (s.divideOp f p q) (s'.divideOp f p q) := by
  by_cases hz : s.get q = 0
  · rw [State.divideOp_zero _ _ _ _ hz, State.divideOp_zero _ _ _ _ (h.get hq ▸ hz)]
    exact (h.setDbz _).put _ _
  · rw [State.divideOp_nonzero _ _ _ _ hz, State.divideOp_nonzero _ _ _ _ (h.get hq ▸ hz), h.get hp, h.get hq]
    exact (h.setDbz _).put _ _

theorem AgreeOff.callTo (h : AgreeOff P s s') (hjmp : ¬P .jmp) (htop : ¬P .top) (hic : ¬P .ic) (a : Arg16) :
    AgreeOff P (s.callTo a) (s'.callTo a) := by
  have ejmp : s'.jmp = s.jmp := h .jmp hjmp
  have etop : s'.top = s.top := h .top htop
  have eic : s'.ic = s.ic := h .ic hic
  by_cases hz : s.jmp = 0
  · rw [callTo_outermost hz, callTo_outermost (ejmp ▸ hz)]
    exact h.linkAndGo eic a
  by_cases hfull : s.top.val = 100
  · rw [callTo_full hz hfull, callTo_full (ejmp ▸ hz) (etop ▸ hfull)]
    exact h.abort _
  · have hk : s.top.val = (⟨s.top.val, by omega⟩ : Fin 100).val := rfl
    have hk' : s'.top.val = (⟨s.top.val, by omega⟩ : Fin 100).val := congrArg Fin.val etop
    rw [callTo_room hz hk, callTo_room (ejmp ▸ hz) hk', ejmp]
    exact (h.pushed _ _).linkAndGo eic a

theorem AgreeOff.returnFromCall (h : AgreeOff P s s') (hjmp : ¬P .jmp) (htop : ¬P .top) (hslot : ∀ k, ¬P (.slot k)) :
    AgreeOff P s.returnFromCall s'.returnFromCall := by
  have ejmp : s'.jmp = s.jmp := h .jmp hjmp
  have etop : s'.top = s.top := h .top htop
  have eslot : ∀ k : Fin 100, s'.cstack[k.val] = s.cstack[k.val] := fun k => h (.slot k) (hslot k)
  by_cases hz : s.top.val = 0
  · have hz' : s'.top.val = 0 := etop ▸ hz
    refine h.of_changes (returnFromCall_empty_changes hz) (returnFromCall_empty_changes hz') ?_
    simpa [StatePart.Same, State.returnFromCall_empty hz, State.returnFromCall_empty hz', ejmp] using fun _ => eslot 0
  · obtain ⟨k, hk⟩ := exists_top_eq_succ hz
    rw [returnFromCall_popped hk, returnFromCall_popped (etop ▸ hk)]
    exact h.of_changes (popped_changes s k) (popped_changes s' k) (by simp [StatePart.Same, popped, ejmp, eslot k])

theorem AgreeOff.consoleRead (h : AgreeOff P s s') (henv : ¬P .env) (hcon : ¬P .conout) (hdiag : ¬P .diag) {dst : Place}
    (hdst : ¬P dst.part) (f : Fmt) : AgreeOff P (s.consoleRead dst f) (s'.consoleRead dst f) := by
  simp only [State.consoleRead, h.sent henv hcon hdiag, h.get hdst]
  exact ((h.ask _).put _ _).setIoerr _

theorem AgreeOff.openHandle (h : AgreeOff P s s') (henv : ¬P .env) (hcon : ¬P .conout) (hdiag : ¬P .diag) {n : Slot}
    (hn : ¬P (.handle n)) : AgreeOff P (s.openHandle n) (s'.openHandle n) := by
  have hread : s'.readHandle n = s.readHandle n := h (.handle n) hn
  simp only [State.openHandle, h.sent henv hcon hdiag, hread]
  exact ((h.ask _).writeHandle _ _).setIoerr _

theorem AgreeOff.closeHandle (h : AgreeOff P s s') {n : Slot} (hn : ¬P (.handle n)) :
    AgreeOff P (s.closeHandle n) (s'.closeHandle n) := by
  have hread : s'.readHandle n = s.readHandle n := h (.handle n) hn
  cases hopen : s.readHandle n with
  | true =>
    rw [s.closeHandle_open hopen, s'.closeHandle_open (hread ▸ hopen)]
    exact (h.ask _).writeHandle _ _
  | false =>
    rw [s.closeHandle_closed hopen, s'.closeHandle_closed (hread ▸ hopen)]
    exact h

/-- Step 4 reads the run state, the counter and `MEMSIZE` (R96, R97). -/
theorem AgreeOff.advance (h : AgreeOff P s s') (hrun : ¬P .run) (hic : ¬P .ic) (hcfg : ¬P .cfg) :
    AgreeOff P s.advance s'.advance := by
  have erun : s'.run = s.run := h .run hrun
  have eic : s'.ic = s.ic := h .ic hic
  have hsize : s'.cfg = s.cfg := h.cfg hcfg
  by_cases hr : s.run = .running
  · have hr' : s'.run = .running := erun.trans hr
    rcases Nat.lt_or_ge (unsigned (s.ic + 1)) s.cfg.memSize with hlt | hge
    · rw [State.advance_running hr hlt, State.advance_running hr' (by rwa [eic, hsize]), eic]
      exact h.setIc _
    · rw [State.advance_outside hr hge, State.advance_outside hr' (by rwa [eic, hsize]), eic]
      exact (h.setIc (s.ic + 1)).abort .icOob
  · rw [State.advance_stopped hr, State.advance_stopped (erun ▸ hr)]
    exact h

end

/-! ## What an action reads -/

/-- The parts of the state an action reads beyond those it writes: its operands, `MEMSIZE` where it tests an address, the
history where it asks the environment. -/
def reads : Action → List StatePart
  | .halt => []
  | .halte => []
  | .copy _ src => [src.part]
  | .imm _ _ => []
  | .load _ a => [.cfg, .word (dataAddress a)]
  | .store src _ => [.cfg, src.part]
  | .narrow _ _ p q => [p.part, q.part]
  | .divide _ p q => [p.part, q.part]
  | .bitwise _ p q => [p.part, q.part]
  | .compare p q => [p.part, q.part]
  | .compareMem p a => [.cfg, .word (dataAddress a), p.part]
  | .jump _ => []
  | .branch _ _ => [.lt, .eq, .gt]
  | .call _ => [.jmp, .top, .ic]
  | .ret => .jmp :: .top :: allSlots
  | .write _ src => [src.part]
  | .read dst _ => [.env, .conout, .diag, dst.part]
  | .openSlot n => [.env, .conout, .diag, .handle n]
  | .closeSlot n => [.handle n]
  | .stub _ => [.ic]

/-- States that agree off `P` agree off `P` after an action that reads nothing of `P`. -/
theorem run_agree {P : StatePart → Prop} {s s' : State} (h : AgreeOff P s s') {a : Action} (hr : ∀ p ∈ reads a, ¬P p) :
    AgreeOff P (a.run s) (a.run s') := by
  cases a <;> simp only [reads, List.forall_mem_cons, List.not_mem_nil, false_imp_iff, implies_true, and_true] at hr
  case halt => exact h.haltAs _
  case halte => exact h.haltAs _
  case copy dst src => simpa only [Action.run, h.get hr] using h.put dst _
  case imm dst v => exact h.put dst _
  case load dst a =>
    obtain ⟨hcfg, hword⟩ := hr
    exact h.withMemRead hcfg hword fun v => h.put dst v
  case store src a =>
    obtain ⟨hcfg, hsrc⟩ := hr
    simpa only [Action.run, State.store, h.get hsrc] using h.memWrite hcfg _ _
  case narrow z ovf p q =>
    obtain ⟨hp, hq⟩ := hr
    simpa only [Action.run, h.get hp, h.get hq] using (h.setOvf _).put .a _
  case divide f p q =>
    obtain ⟨hp, hq⟩ := hr
    exact h.divideOp f hp hq
  case bitwise f p q =>
    obtain ⟨hp, hq⟩ := hr
    simpa only [Action.run, h.get hp, h.get hq] using h.put .a _
  case compare p q =>
    obtain ⟨hp, hq⟩ := hr
    simpa only [Action.run, State.compareOp, h.get hp, h.get hq] using h.compare _ _
  case compareMem p a =>
    obtain ⟨hcfg, hword, hp⟩ := hr
    simpa only [Action.run, State.compareMem, h.get hp] using h.withMemRead hcfg hword fun v => h.compare _ v
  case jump a => exact h.branchIf true a
  case branch cond a =>
    obtain ⟨hlt, heq, hgt⟩ := hr
    have elt : s'.flagLt = s.flagLt := h .lt hlt
    have eeq : s'.flagEq = s.flagEq := h .eq heq
    have egt : s'.flagGt = s.flagGt := h .gt hgt
    simpa only [Action.run, elt, eeq, egt] using h.branchIf _ a
  case call a =>
    obtain ⟨hjmp, htop, hic⟩ := hr
    exact h.callTo hjmp htop hic a
  case ret =>
    obtain ⟨hjmp, htop, hslots⟩ := hr
    exact h.returnFromCall hjmp htop fun k => hslots _ (slot_mem_allSlots k)
  case write f src => simpa only [Action.run, h.get hr] using h.conOut f _
  case read dst f =>
    obtain ⟨henv, hcon, hdiag, hdst⟩ := hr
    exact h.consoleRead henv hcon hdiag hdst f
  case openSlot n =>
    obtain ⟨henv, hcon, hdiag, hn⟩ := hr
    exact h.openHandle henv hcon hdiag hn
  case closeSlot n => exact h.closeHandle hr
  case stub o =>
    have eic : s'.ic = s.ic := h .ic hr
    simpa only [Action.run, State.reportNotImplemented, eic] using h.report _

/-- An instruction that reads nothing of `P` leaves states that agree off `P` where it found such states. -/
theorem exec_agree {P : StatePart → Prop} {i : Instr} {s s' t t' : State} (h : AgreeOff P s s')
    (hr : ∀ p ∈ reads (actionOf i), ¬P p) (he : exec i s = .next t) (he' : exec i s' = .next t') : AgreeOff P t t' := by
  rw [eq_run_of_exec he, eq_run_of_exec he']
  exact run_agree h hr

end Sys2Proof.Proofs.Reads
end

section
/-!
PROOFS. Aborts and the invariant (spec `60_exceptions.md` R240 to R249, `10_state.md` R27, R34, R50, `40_dispatch_engine.md` R98): which
action raises which abort, and the invariant of the machine as two properties, one that an action keeps and one that step 4
restores.
-/

namespace Sys2Proof.Proofs.Invariant

open Sys2Proof.Machine Sys2Proof.Claims Sys2Proof.Proofs.Actions Sys2Proof.Proofs.Branch

/-! ## Aborts -/

/-- The condition under which an action raises an abort (R242, R243). -/
def Raises (s : State) (c : AbortCause) : Action → Prop
  | .load _ a => c = .dataOob ∧ s.cfg.memSize ≤ dataAddress a
  | .store _ a => c = .dataOob ∧ s.cfg.memSize ≤ dataAddress a
  | .compareMem _ a => c = .dataOob ∧ s.cfg.memSize ≤ dataAddress a
  | .call _ => c = .cstackOob ∧ s.jmp ≠ 0 ∧ s.top.val = 100
  | _ => False

/-- The abort an action raises is one of two (R240). -/
theorem raises_cause {s : State} {c : AbortCause} {a : Action} (h : Raises s c a) : c = .dataOob ∨ c = .cstackOob := by
  cases a with
  | load | store | compareMem => exact .inl h.1
  | call => exact .inr h.1
  | _ => exact h.elim

/-- The action completes without an abort: the cause stays, and so does the run state but under a halt. -/
def Completes (a : Action) (s : State) : Prop :=
  (∀ c, ¬Raises s c a) ∧ (a.run s).cause = s.cause ∧
    ((a.run s).run = s.run ∨ (a = .halt ∧ (a.run s).run = .haltedOk) ∨ (a = .halte ∧ (a.run s).run = .haltedError))

/-- An action that writes neither `run` nor `cause` completes. -/
theorem completes_of_frame {a : Action} {s : State} (hno : ∀ c, ¬Raises s c a) (hcause : .cause ∉ a.writes)
    (hrun : .run ∉ a.writes) : Completes a s :=
  ⟨hno, run_changes a s .cause hcause, .inl (run_changes a s .run hrun)⟩

/-- An action on a cell completes where the cell exists and aborts where it does not (R242). -/
theorem completes_or_aborts_of_cell {a : Action} {s : State} {n : Nat}
    (hraises : ∀ c, Raises s c a ↔ c = .dataOob ∧ s.cfg.memSize ≤ n)
    (hin : n < s.cfg.memSize → (a.run s).cause = s.cause ∧ (a.run s).run = s.run)
    (hout : s.cfg.memSize ≤ n → a.run s = s.abort .dataOob) :
    Completes a s ∨ ∃ c, Raises s c a ∧ a.run s = s.abort c := by
  rcases Nat.lt_or_ge n s.cfg.memSize with hlt | hge
  · refine .inl ⟨fun c hc => ?_, (hin hlt).1, .inl (hin hlt).2⟩
    exact absurd ((hraises c).1 hc).2 (by omega)
  · exact .inr ⟨_, (hraises _).2 ⟨rfl, hge⟩, hout hge⟩

/-- Every action completes, or raises an abort and does nothing else (R249). -/
theorem completes_or_aborts (a : Action) (s : State) :
    Completes a s ∨ ∃ c, Raises s c a ∧ a.run s = s.abort c := by
  cases a with
  | halt => exact .inl ⟨fun _ h => h, rfl, .inr (.inl ⟨rfl, rfl⟩)⟩
  | halte => exact .inl ⟨fun _ h => h, rfl, .inr (.inr ⟨rfl, rfl⟩)⟩
  | load dst a =>
    refine completes_or_aborts_of_cell (fun _ => Iff.rfl) (fun h => ?_) (s.load_outside dst)
    simp [Action.run, s.load_inside dst h]
  | store src a =>
    refine completes_or_aborts_of_cell (fun _ => Iff.rfl) (fun h => ?_) (s.store_outside src)
    simp [Action.run, s.store_inside src h]
  | compareMem p a =>
    refine completes_or_aborts_of_cell (fun _ => Iff.rfl) (fun h => ?_) (s.compareMem_outside p)
    simp [Action.run, s.compareMem_inside p h]
  | call a =>
    by_cases hz : s.jmp = 0
    · exact .inl ⟨fun _ ⟨_, hlink, _⟩ => hlink hz, by simp [Action.run, callTo_outermost hz],
        .inl (by simp [Action.run, callTo_outermost hz])⟩
    by_cases hfull : s.top.val = 100
    · exact .inr ⟨_, ⟨rfl, hz, hfull⟩, callTo_full hz hfull a⟩
    · have hroom := callTo_room (k := ⟨s.top.val, by omega⟩) hz rfl a
      exact .inl ⟨fun _ ⟨_, _, h⟩ => hfull h, by simp [Action.run, hroom, pushed],
        .inl (by simp [Action.run, hroom, pushed])⟩
  | _ => exact .inl (completes_of_frame (fun _ h => h) (by simp [Action.writes]) (by simp [Action.writes]))

/-! ## What an action keeps -/

@[simp] theorem run_cfg (a : Action) (s : State) : (a.run s).cfg = s.cfg := by
  refine run_changes a s .cfg ?_
  cases a <;> simp [Action.writes, mem_allSlots]

theorem withMemRead_mem {s : State} {k : Word → State} (hk : ∀ v, (k v).mem = s.mem) (n : Nat) :
    (s.withMemRead n k).mem = s.mem := by
  rcases s.withMemRead_cases n k with ⟨-, e⟩ | ⟨-, e⟩ <;> rw [e]
  · exact hk _
  · rfl

theorem divideOp_mem (s : State) (f : Int → Int → Int) (p q : Place) : (s.divideOp f p q).mem = s.mem := by
  simp only [State.divideOp]
  split <;> simp

theorem callTo_mem (s : State) (a : Arg16) : (s.callTo a).mem = s.mem := by
  rcases s.callTo_cases a with ⟨-, e⟩ | ⟨-, t, ht, e⟩ | ⟨-, -, e⟩ <;> rw [e]
  · rfl
  · obtain ⟨-, rfl⟩ := State.push_some ht
    rfl
  · rfl

theorem returnFromCall_mem (s : State) : s.returnFromCall.mem = s.mem := by
  by_cases h : s.top.val = 0
  · rw [State.returnFromCall_empty h]
  · rw [State.returnFromCall_pop h]

theorem closeHandle_mem (s : State) (n : Slot) : (s.closeHandle n).mem = s.mem := by
  cases h : s.readHandle n with
  | true => rw [s.closeHandle_open h, State.writeHandle_mem, State.ask_mem]
  | false => rw [s.closeHandle_closed h]

/-- An action writes one word inside memory, or leaves the list of words as it is (R53). -/
theorem run_mem_cases (a : Action) (s : State) :
    (∃ n v, n < s.cfg.memSize ∧ (a.run s).mem = s.mem.write n v) ∨ (a.run s).mem = s.mem := by
  cases a with
  | store src a =>
    rcases s.memWrite_cases (dataAddress a) (s.get src) with ⟨hlt, e⟩ | ⟨-, e⟩
    · exact .inl ⟨_, _, hlt, by rw [Action.run, State.store, e]⟩
    · exact .inr (by rw [Action.run, State.store, e, State.abort_mem])
  | load dst a => exact .inr (withMemRead_mem (s.put_mem dst) _)
  | compareMem p a => exact .inr (withMemRead_mem (s.compare_mem _) _)
  | divide f p q => exact .inr (divideOp_mem s f p q)
  | call a => exact .inr (callTo_mem s a)
  | ret => exact .inr (returnFromCall_mem s)
  | closeSlot n => exact .inr (closeHandle_mem s n)
  | copy dst _ | imm dst _ => exact .inr (s.put_mem dst _)
  | read dst f => exact .inr (State.put_mem _ dst _)
  | _ => exact .inr rfl

/-- The number of comparison flags that are set. -/
def flagCount (s : State) : Nat := s.flagLt.toNat + s.flagEq.toNat + s.flagGt.toNat

/-- Exactly one of less, equal and greater holds of two words (R27, R180). -/
theorem flagCount_compare (s : State) (p q : Word) : flagCount (s.compare p q) = 1 := by
  simp only [flagCount, State.compare_flagLt, State.compare_flagEq, State.compare_flagGt]
  rcases lt_trichotomy (signed p) (signed q) with h | h | h
  · simp [h, h.ne, h.not_gt]
  · simp [h]
  · simp [h, h.ne', h.not_gt]

theorem flagCount_congr {s t : State} (hlt : t.flagLt = s.flagLt) (heq : t.flagEq = s.flagEq) (hgt : t.flagGt = s.flagGt) :
    flagCount t = flagCount s := by
  rw [flagCount, hlt, heq, hgt, flagCount]

/-- An action compares, or leaves the comparison flags alone (R29). -/
theorem run_flagCount_cases (a : Action) (s : State) :
    flagCount (a.run s) = 1 ∨ flagCount (a.run s) = flagCount s := by
  cases a with
  | compare p q => exact .inl (flagCount_compare s _ _)
  | compareMem p a =>
    rcases compareMem_cases s p a with ⟨v, w, e⟩ | e
    · exact .inl (by rw [Action.run, e, flagCount_compare])
    · exact .inr (by rw [Action.run, e]; rfl)
  | _ =>
    exact .inr (flagCount_congr (run_changes _ s .lt (by simp [Action.writes, mem_allSlots]))
      (run_changes _ s .eq (by simp [Action.writes, mem_allSlots])) (run_changes _ s .gt (by simp [Action.writes, mem_allSlots])))

/-! ## The invariant -/

/-- The invariant without its clause on the counter: what holds between the handler and step 4 too. -/
structure HandlerInv (s : State) : Prop where
  params : s.cfg.wf
  canonical : s.mem.wf
  bounded : ∀ p ∈ s.mem, p.1 < s.cfg.memSize
  flags : flagCount s ≤ 1
  cause : s.cause ≠ .none ↔ s.run = .abortedOob

theorem handlerInv_of_inv {s : State} (h : s.Inv) : HandlerInv s := by
  obtain ⟨hparams, hcanonical, hbounded, -, hflags, hcause⟩ := h
  exact ⟨hparams, hcanonical, hbounded, hflags, hcause⟩

/-- Step 4 restores the clause on the counter: it leaves the core running only inside memory (R96, R98). -/
theorem advance_inv {s : State} (h : HandlerInv s) : s.advance.Inv := by
  obtain ⟨hparams, hcanonical, hbounded, hflags, hcause⟩ := h
  rcases s.advance_cases with ⟨hstopped, e⟩ | ⟨-, hlt, e⟩ | ⟨-, -, e⟩ <;> rw [e]
  · exact ⟨hparams, hcanonical, hbounded, fun hr => absurd hr hstopped, hflags, hcause⟩
  · exact ⟨hparams, hcanonical, hbounded, fun _ => hlt, hflags, hcause⟩
  · exact ⟨hparams, hcanonical, hbounded, fun hr => (nomatch hr), hflags, by simp⟩

/-- An action of a running core keeps the rest of the invariant. -/
theorem run_handlerInv {s : State} (h : HandlerInv s) (hr : s.run = .running) (a : Action) : HandlerInv (a.run s) where
  params := by
    rw [run_cfg]
    exact h.params
  canonical := by
    rcases run_mem_cases a s with ⟨n, v, -, e⟩ | e <;> rw [e]
    · exact Memory.write_wf h.canonical n v
    · exact h.canonical
  bounded := by
    rw [run_cfg]
    rcases run_mem_cases a s with ⟨n, v, hlt, e⟩ | e <;> rw [e]
    · exact Memory.write_bounded h.bounded hlt v
    · exact h.bounded
  flags := by
    rcases run_flagCount_cases a s with e | e <;> rw [e]
    exact h.flags
  cause := by
    have hcause : s.cause = .none := by
      by_contra hne
      exact absurd (hr.symm.trans (h.cause.1 hne)) (by decide)
    rcases completes_or_aborts a s with ⟨-, hkept, hrun⟩ | ⟨c, hraises, e⟩
    · rw [hkept, hcause]
      rcases hrun with e | ⟨-, e⟩ | ⟨-, e⟩ <;> simp [e, hr]
    · rw [e]
      rcases raises_cause hraises with rfl | rfl <;> simp

/-- Every step keeps the invariant (R98). -/
theorem step_inv {s u : State} (h : s.Inv) (hs : step s = .next u) : u.Inv := by
  have hh := handlerInv_of_inv h
  rcases step_cases hs with ⟨-, rfl⟩ | ⟨hr, w, -, ⟨i, t, -, he, rfl⟩ | ⟨o, -, rfl⟩⟩
  · exact h
  · rw [eq_run_of_exec he]
    exact advance_inv (run_handlerInv hh hr (actionOf i))
  · exact advance_inv ⟨hh.params, hh.canonical, hh.bounded, hh.flags, hh.cause⟩

/-- Settles O49: the action of the instruction keeps all of the invariant but the clause on the counter, which step 4 restores. -/
theorem stepKeepsTheInvariant : Obligations.StepKeepsTheInvariant := fun _ _ => step_inv

/-! ## Resets and runs -/

/-- The state right after a reset that starts (R260, R262). -/
def started (cfg : Config) (image : List Word) : State :=
  { State.reset with cfg := cfg, mem := Memory.loadAt [] 0 image }

/-- Everything `boot` answers: it starts exactly with parameters in bounds and an image that fits (R262, R263). -/
theorem boot_eq_some {cfg : Config} {image : List Word} {s : State} :
    boot cfg image = some s ↔ (cfg.wf ∧ image.length ≤ cfg.memSize) ∧ s = started cfg image := by
  unfold boot
  split
  · next h => exact ⟨fun e => ⟨h, (Option.some.inj e).symm⟩, fun e => congrArg some e.2.symm⟩
  · next h => exact ⟨fun e => (nomatch e), fun e => absurd e.1 h⟩

/-- Settles O55: the loaded memory is canonical and inside `MEMSIZE`, and the other parts are at their reset values. -/
theorem everyResetMeetsTheInvariant : Obligations.EveryResetMeetsTheInvariant := by
  rintro s ⟨cfg, image, hboot⟩
  obtain ⟨⟨hwf, hfits⟩, rfl⟩ := boot_eq_some.1 hboot
  have hbounded : ∀ p ∈ Memory.loadAt [] 0 image, p.1 < cfg.memSize :=
    Memory.loadAt_bounded (by simp) 0 image (by omega)
  exact ⟨hwf, Memory.loadAt_wf Memory.nil_wf 0 image, hbounded, fun _ => hwf.1, by simp [started, State.reset],
    by simp [started, State.reset]⟩

/-- Settles O50: `State.reset` is what a reset with the default parameters and the empty image gives. -/
theorem resetMeetsTheInvariant : Obligations.ResetMeetsTheInvariant :=
  everyResetMeetsTheInvariant _ ⟨Config.default, [], boot_eq_some.2 ⟨by decide, rfl⟩⟩

theorem reaches_inv {s t : State} (h : s.Inv) (ht : Reaches s t) : t.Inv := by
  induction ht with
  | refl => exact h
  | tail _ hs ih => exact step_inv ih hs

/-- A state with the invariant has a next state: a running core fetches inside memory, and no handler stops (R98). -/
theorem step_isNext {s : State} (h : s.Inv) : ∃ u, step s = .next u := by
  obtain ⟨-, -, -, hic, -, -⟩ := h
  by_cases hr : s.run = .running
  · obtain ⟨t, -, hstep⟩ := Engine.exists_step_eq_advance hr (State.fetch_eq_some.2 ⟨hic hr, rfl⟩)
    exact ⟨_, hstep⟩
  · exact ⟨s, step_stopped hr⟩

/-- Settles O51: the invariant holds after reset, every step keeps it, and a state that has it answers a next state. -/
theorem runsNeverStop : Obligations.RunsNeverStop := fun s hb _ ht =>
  step_isNext (reaches_inv (everyResetMeetsTheInvariant s hb) ht)

end Sys2Proof.Proofs.Invariant
end

section
/-!
PROOFS. Who writes and who reads each part of the state (spec `10_state.md` R21, R29, R30, R39, R40, `20_memory.md` R53): the frame of
an action and its comparison of two executions, for the parts each rule names.
-/

namespace Sys2Proof.Proofs.Ownership

open Sys2Proof.Machine Sys2Proof.Claims Sys2Proof.Proofs.Actions Sys2Proof.Proofs.Reads Sys2Proof.Proofs.Branch
open Sys2Proof.Proofs.Invariant

/-! ## The rows of the table that write a part -/

theorem writtenRegister_of_mem_writes {i : Instr} {n : RegNum} (h : .reg n ∈ (actionOf i).writes) :
    writtenRegister i = some n := by
  cases i with
  | mov | movra | movrj | ldi | ld | rdw =>
    simp only [actionOf, Action.writes, Place.part, List.mem_cons, StatePart.reg.injEq, reduceCtorEq, or_false,
      List.not_mem_nil] at h
    rw [h, writtenRegister]
  | _ => simp [actionOf, Action.writes, Place.part, mem_allSlots] at h

theorem storedCell_of_mem_writes {i : Instr} {n : Nat} (h : .word n ∈ (actionOf i).writes) :
    ∃ v, storedCell i = some v ∧ dataAddress v = n := by
  cases i with
  | st | sta | stj =>
    simp only [actionOf, Action.writes, List.mem_cons, StatePart.word.injEq, reduceCtorEq, or_false, List.not_mem_nil] at h
    exact ⟨_, rfl, h.symm⟩
  | _ => simp [actionOf, Action.writes, Place.part, mem_allSlots] at h

theorem isCompare_of_mem_writes {i : Instr} {p : StatePart} (hp : p = .lt ∨ p = .eq ∨ p = .gt)
    (h : p ∈ (actionOf i).writes) : isCompare i = true := by
  cases i with
  | cmp | cmpar | cmpaj | cmprm | cmpam => rfl
  | _ => rcases hp with rfl | rfl | rfl <;> simp [actionOf, Action.writes, Place.part, mem_allSlots] at h

theorem writesOverflow_of_mem_writes {i : Instr} (h : .ovf ∈ (actionOf i).writes) : writesOverflow i = true := by
  cases i with
  | add | addar | addaj | sub | subar | subaj | mult | multar | multaj => rfl
  | _ => simp [actionOf, Action.writes, Place.part, mem_allSlots] at h

theorem writesDivideByZero_of_mem_writes {i : Instr} (h : .dbz ∈ (actionOf i).writes) : writesDivideByZero i = true := by
  cases i with
  | div | divar | divaj | mod | modar | modaj => rfl
  | _ => simp [actionOf, Action.writes, Place.part, mem_allSlots] at h

theorem writesIoError_of_mem_writes {i : Instr} (h : .ioerr ∈ (actionOf i).writes) : writesIoError i = true := by
  cases i with
  | openSlot | rdw | rdwa => rfl
  | _ => simp [actionOf, Action.writes, Place.part, mem_allSlots] at h

theorem isTransfer_of_mem_writes {i : Instr} (h : .ic ∈ (actionOf i).writes) : isTransfer i = true := by
  cases i with
  | bran | brlt | breq | brgt | brle | brge | brgl | call | ret => rfl
  | _ => simp [actionOf, Action.writes, Place.part] at h

theorem call_or_ret_of_mem_writes {i : Instr} {p : StatePart} (hp : p = .top ∨ ∃ k, p = .slot k)
    (h : p ∈ (actionOf i).writes) : (∃ a, i = .call a) ∨ i = .ret := by
  cases i with
  | call a => exact .inl ⟨a, rfl⟩
  | ret => exact .inr rfl
  | _ => rcases hp with rfl | ⟨k, rfl⟩ <;> simp [actionOf, Action.writes, Place.part] at h

theorem open_or_close_of_mem_writes {i : Instr} {n : Slot} (h : .handle n ∈ (actionOf i).writes) :
    ∃ m, i = .openSlot m ∨ i = .closeSlot m := by
  cases i with
  | openSlot m => exact ⟨m, .inl rfl⟩
  | closeSlot m => exact ⟨m, .inr rfl⟩
  | _ => simp [actionOf, Action.writes, Place.part, mem_allSlots] at h

/-! ## The rows of the table that read a part -/

theorem isConditionalBranch_of_mem_reads {i : Instr} {p : StatePart} (hp : p ∈ [StatePart.lt, .eq, .gt])
    (h : p ∈ reads (actionOf i)) : isConditionalBranch i = true := by
  cases i with
  | brlt | breq | brgt | brle | brge | brgl => rfl
  | _ =>
    simp only [List.mem_cons, List.not_mem_nil, or_false] at hp
    rcases hp with rfl | rfl | rfl <;> simp [actionOf, reads, Place.part, mem_allSlots] at h

theorem not_mem_reads_of_error {i : Instr} {p : StatePart} (hp : p ∈ [StatePart.ovf, .dbz, .ioerr]) :
    p ∉ reads (actionOf i) := by
  simp only [List.mem_cons, List.not_mem_nil, or_false] at hp
  generalize actionOf i = a
  rcases hp with rfl | rfl | rfl <;> cases a <;> simp [reads, mem_allSlots]

theorem ret_of_slot_mem_reads {i : Instr} {k : Fin 100} (h : .slot k ∈ reads (actionOf i)) : i = .ret := by
  cases i with
  | ret => rfl
  | _ => simp [actionOf, reads, Place.part] at h

theorem call_or_ret_of_top_mem_reads {i : Instr} (h : .top ∈ reads (actionOf i)) : (∃ a, i = .call a) ∨ i = .ret := by
  cases i with
  | call a => exact .inl ⟨a, rfl⟩
  | ret => exact .inr rfl
  | _ => simp [actionOf, reads, Place.part] at h

theorem open_or_close_of_mem_reads {i : Instr} {n : Slot} (h : .handle n ∈ reads (actionOf i)) :
    ∃ m, i = .openSlot m ∨ i = .closeSlot m := by
  cases i with
  | openSlot m => exact ⟨m, .inl rfl⟩
  | closeSlot m => exact ⟨m, .inr rfl⟩
  | _ => simp [actionOf, reads, Place.part, mem_allSlots] at h

/-- The readers of the counter: `CALL`, which links it, and the stream stubs, which report it (R206, R233). -/
theorem call_or_stub_of_ic_mem_reads {i : Instr} (h : .ic ∈ reads (actionOf i)) :
    (∃ a, i = .call a) ∨ ∃ o, actionOf i = .stub o := by
  cases i with
  | call a => exact .inl ⟨a, rfl⟩
  | fread o | fwrite o => exact .inr ⟨o, rfl⟩
  | _ => simp [actionOf, reads, Place.part, mem_allSlots] at h

/-! ## From the parts to the register file, the call stack and the handle table -/

theorem x_eq_of_readReg {s t : State} (h : ∀ n, t.readReg n = s.readReg n) : t.x = s.x := by
  refine Vector.ext fun k hk => ?_
  have hn : (BitVec.ofNat 4 k).toNat = k := by simp; omega
  have hreg := h (BitVec.ofNat 4 k)
  simpa only [State.readReg, hn] using hreg

theorem cstack_eq_of_slots {s t : State} (h : ∀ k : Fin 100, t.cstack[k.val] = s.cstack[k.val]) : t.cstack = s.cstack :=
  Vector.ext fun k hk => h ⟨k, hk⟩

theorem handle_eq_of_readHandle {s t : State} (h : ∀ n, t.readHandle n = s.readHandle n) : t.handle = s.handle := by
  refine Vector.ext fun k hk => ?_
  have hn : (BitVec.ofNat 4 k).toNat = k := by simp; omega
  have hreg := h (BitVec.ofNat 4 k)
  simpa only [State.readHandle, hn] using hreg

/-! ## General registers and memory -/

/-- Settles O47: the frame of the action, and the rows that write a register or a word. -/
theorem registerAndMemoryWriters : Obligations.RegisterAndMemoryWriters := by
  intro i s t he
  refine ⟨fun n hn => writtenRegister_of_mem_writes ?_, fun a ha => storedCell_of_mem_writes ?_⟩
  · by_contra hmem
    exact hn (exec_same he hmem)
  · by_contra hmem
    exact ha (exec_same he hmem)

/-! ## The handle table -/

/-- Settles O46: no other row writes a handle, and none reads one. -/
theorem handleTableOwnership : Obligations.HandleTableOwnership := by
  refine ⟨fun i s t he hno => ?writers, fun i s t t' c hno he he' p hp => ?readers⟩
  case writers =>
    refine handle_eq_of_readHandle fun n => exec_same he (p := .handle n) fun hmem => ?_
    obtain ⟨m, e | e⟩ := open_or_close_of_mem_writes hmem
    · exact (hno m).1 e
    · exact (hno m).2 e
  case readers =>
    have hagree : AgreeOff (fun p => ∃ n, p = .handle n) s { s with handle := c } := by
      intro q hq
      cases q with
      | handle n => exact absurd ⟨n, rfl⟩ hq
      | _ => rfl
    refine exec_agree hagree ?_ he he' p fun ⟨n, e⟩ => hp n e
    rintro _ hmem ⟨n, rfl⟩
    obtain ⟨m, e | e⟩ := open_or_close_of_mem_reads hmem
    · exact (hno m).1 e
    · exact (hno m).2 e

/-! ## The call stack -/

theorem not_call_or_ret {i : Instr} (hcall : ∀ a, i ≠ .call a) (hret : i ≠ .ret) : ¬((∃ a, i = .call a) ∨ i = .ret) := by
  rintro (⟨a, e⟩ | e)
  · exact hcall a e
  · exact hret e

/-- Settles O35: the rows of `CALL` and `END`, and what each of the two does to the slots. -/
theorem callStackOwnership : Obligations.CallStackOwnership := by
  refine ⟨fun i s t he hcall hret => ?others, fun a s t he => ?call, fun s t he => ?ret,
    fun i s t t' c hret he he' p hp => ?slotReaders, fun i s t t' c n hcall hret he he' p hp htop => ?stackReaders⟩
  case others =>
    have hsame : ∀ p : StatePart, (p = .top ∨ ∃ k, p = .slot k) → p.Same s t := fun p hp =>
      exec_same he fun hmem => not_call_or_ret hcall hret (call_or_ret_of_mem_writes hp hmem)
    exact ⟨cstack_eq_of_slots fun k => hsame (.slot k) (.inr ⟨k, rfl⟩), hsame .top (.inl rfl)⟩
  case call =>
    obtain rfl := eq_run_of_exec he
    by_cases hz : s.jmp = 0
    · exact .inl (by simp [actionOf, Action.run, callTo_outermost hz])
    by_cases hfull : s.top.val = 100
    · exact .inl (by simp [actionOf, Action.run, callTo_full hz hfull])
    · have hroom := callTo_room (k := ⟨s.top.val, by omega⟩) hz rfl a
      refine .inr ⟨by simp [actionOf, Action.run, hroom, pushed], fun j hj => ?_⟩
      simp [actionOf, Action.run, hroom, pushed, Ne.symm hj]
  case ret =>
    obtain rfl := eq_run_of_exec he
    by_cases hz : s.top.val = 0
    · refine .inr ⟨by simp [actionOf, Action.run, State.returnFromCall_empty hz],
        by simp [actionOf, Action.run, State.returnFromCall_empty hz], fun j hj => ?_⟩
      simp [actionOf, Action.run, State.returnFromCall_empty hz, Ne.symm hj]
    · obtain ⟨k, hk⟩ := exists_top_eq_succ hz
      exact .inl (by simp [actionOf, Action.run, returnFromCall_popped hk, popped, hk])
  case slotReaders =>
    have hagree : AgreeOff (fun p => ∃ k, p = .slot k) s { s with cstack := c } := by
      intro q hq
      cases q with
      | slot k => exact absurd ⟨k, rfl⟩ hq
      | _ => rfl
    refine exec_agree hagree ?_ he he' p fun ⟨k, e⟩ => hp k e
    rintro _ hmem ⟨k, rfl⟩
    exact hret (ret_of_slot_mem_reads hmem)
  case stackReaders =>
    have hagree : AgreeOff (fun p => (∃ k, p = .slot k) ∨ p = .top) s { s with cstack := c, top := n } := by
      intro q hq
      cases q with
      | slot k => exact absurd (.inl ⟨k, rfl⟩) hq
      | top => exact absurd (.inr rfl) hq
      | _ => rfl
    refine exec_agree hagree ?_ he he' p fun h => h.elim (fun ⟨k, e⟩ => hp k e) htop
    rintro _ hmem (⟨k, rfl⟩ | rfl)
    · exact hret (ret_of_slot_mem_reads hmem)
    · exact not_call_or_ret hcall hret (call_or_ret_of_top_mem_reads hmem)

/-! ## Two steps from states that agree -/

/-- Step 4 writes the counter, the run state and the cause. -/
theorem advance_changes (s : State) : OnlyChanges [.ic, .run, .cause] s s.advance := by
  rcases s.advance_cases with ⟨-, e⟩ | ⟨-, -, e⟩ | ⟨-, -, e⟩ <;> rw [e]
  · exact OnlyChanges.refl _ s
  · exact (setIc_changes s _).mono (by simp)
  · exact ((setIc_changes s (s.ic + 1)).trans (State.abort_changes _ .icOob)).mono (by simp)

/-- States that agree on what the engine and the fetched instruction read agree after their steps. -/
theorem step_agree {P : StatePart → Prop} {s s' u u' : State} (h : AgreeOff P s s') (hrun : ¬P .run) (hic : ¬P .ic)
    (hcfg : ¬P .cfg) (hword : ∀ a, ¬P (.word a)) (hr : ∀ i, ∀ p ∈ reads (actionOf i), ¬P p) (hs : step s = .next u)
    (hs' : step s' = .next u') : AgreeOff P u u' := by
  have erun : s'.run = s.run := h .run hrun
  have eic : s'.ic = s.ic := h .ic hic
  have ecfg : s'.cfg = s.cfg := h .cfg hcfg
  have eword : s'.mem.read (unsigned s.ic) = s.mem.read (unsigned s.ic) := h (.word _) (hword _)
  have efetch : s'.fetch = s.fetch := by simp only [State.fetch, State.memWord, eic, ecfg, eword]
  rcases step_cases hs with ⟨hstop, rfl⟩ | ⟨hgo, w, hw, ⟨i, t, hd, he, rfl⟩ | ⟨o, hd, rfl⟩⟩
  · rw [step_stopped (erun ▸ hstop)] at hs'
    cases hs'
    exact h
  · rw [step_running (erun.trans hgo) (efetch.trans hw), State.runWord_ok (ecfg ▸ hd) (exec_eq_run i s')] at hs'
    cases hs'
    exact (exec_agree h (hr i) he (exec_eq_run i s')).advance hrun hic hcfg
  · rw [step_running (erun.trans hgo) (efetch.trans hw), State.runWord_error (ecfg ▸ hd), eic] at hs'
    cases hs'
    exact (h.report _).advance hrun hic hcfg

/-! ## The error flags -/

/-- Settles O26: three rows of writers, and no row of readers. -/
theorem errorFlagsAreAdvisory : Obligations.ErrorFlagsAreAdvisory := by
  refine ⟨fun i s t he => ⟨fun hno => ?ovf, fun hno => ?dbz, fun hno => ?ioerr⟩, fun s u u' o d e hs hs' => ?readers⟩
  case ovf => exact exec_same he (p := .ovf) fun hmem => by simp [writesOverflow_of_mem_writes hmem] at hno
  case dbz => exact exec_same he (p := .dbz) fun hmem => by simp [writesDivideByZero_of_mem_writes hmem] at hno
  case ioerr => exact exec_same he (p := .ioerr) fun hmem => by simp [writesIoError_of_mem_writes hmem] at hno
  case readers =>
    have hagree : AgreeOff (· ∈ [StatePart.ovf, .dbz, .ioerr]) s
        { s with flagOvf := o, flagDbz := d, flagIoerr := e } := by
      intro q hq
      cases q with
      | ovf | dbz | ioerr => simp at hq
      | _ => rfl
    exact step_agree hagree (by simp) (by simp) (by simp) (by simp) (fun i p hmem hp => not_mem_reads_of_error hp hmem)
      hs hs'

/-! ## The comparison flags -/

/-- All three comparison flags are as they were. -/
def SameFlags (s t : State) : Prop :=
  t.flagLt = s.flagLt ∧ t.flagEq = s.flagEq ∧ t.flagGt = s.flagGt

theorem SameFlags.trans {s t u : State} (h : SameFlags s t) (h' : SameFlags t u) : SameFlags s u := by
  obtain ⟨hlt, heq, hgt⟩ := h
  obtain ⟨hlt', heq', hgt'⟩ := h'
  exact ⟨hlt'.trans hlt, heq'.trans heq, hgt'.trans hgt⟩

theorem sameFlags_of_frame {ps : List StatePart} {s t : State} (h : OnlyChanges ps s t) (hlt : .lt ∉ ps) (heq : .eq ∉ ps)
    (hgt : .gt ∉ ps) : SameFlags s t :=
  ⟨h .lt hlt, h .eq heq, h .gt hgt⟩

theorem advance_sameFlags (s : State) : SameFlags s s.advance :=
  sameFlags_of_frame (advance_changes s) (by simp) (by simp) (by simp)

theorem exec_sameFlags {i : Instr} {s t : State} (he : exec i s = .next t) (hc : isCompare i = false) : SameFlags s t := by
  have hno : ∀ p : StatePart, (p = .lt ∨ p = .eq ∨ p = .gt) → p ∉ (actionOf i).writes := fun p hp hmem => by
    simp [isCompare_of_mem_writes hp hmem] at hc
  exact ⟨exec_same he (hno .lt (by simp)), exec_same he (hno .eq (by simp)), exec_same he (hno .gt (by simp))⟩

/-- A step that runs no compare leaves the comparison flags. -/
theorem step_sameFlags {s u : State} (hs : step s = .next u) (hno : ∀ i, Fetches s i → isCompare i = false) :
    SameFlags s u := by
  rcases step_cases hs with ⟨-, rfl⟩ | ⟨hr, w, hw, ⟨i, t, hd, he, rfl⟩ | ⟨o, -, rfl⟩⟩
  · exact ⟨rfl, rfl, rfl⟩
  · exact (exec_sameFlags he (hno i ⟨hr, w, hw, hd⟩)).trans (advance_sameFlags t)
  · exact advance_sameFlags (s.report (.unknownOpcode o s.ic))

/-- A run of `n + 1` steps is a step and a run of `n` steps. -/
theorem run_succ {s t : State} {n : Nat} (hs : step s = .next t) :
    Host.Core.run Sys2Proof.core (n + 1) s = Host.Core.run Sys2Proof.core n t := by
  have hcore : Sys2Proof.core.step s = .next t := hs
  simp only [Host.Core.run, hcore]

theorem exists_step_of_run_succ {s u : State} {n : Nat} (h : Host.Core.run Sys2Proof.core (n + 1) s = .next u) :
    ∃ t : State, step s = .next t ∧ Host.Core.run Sys2Proof.core n t = .next u := by
  cases hs : step s with
  | next t => exact ⟨t, rfl, run_succ hs ▸ h⟩
  | fault r =>
    have hcore : Sys2Proof.core.step s = .fault r := hs
    simp [Host.Core.run, hcore] at h
  | refused r =>
    have hcore : Sys2Proof.core.step s = .refused r := hs
    simp [Host.Core.run, hcore] at h

/-- A run in which no compare runs leaves the comparison flags. -/
theorem run_sameFlags {n : Nat} {s t : State} (hrun : Host.Core.run Sys2Proof.core n s = .next t)
    (hno : ∀ k < n, ∀ (u : State) (i : Instr), Host.Core.run Sys2Proof.core k s = .next u → Fetches u i →
      isCompare i = false) : SameFlags s t := by
  induction n generalizing s with
  | zero =>
    cases hrun
    exact ⟨rfl, rfl, rfl⟩
  | succ n ih =>
    obtain ⟨v, hs, hrest⟩ := exists_step_of_run_succ hrun
    have hfirst : SameFlags s v := step_sameFlags hs fun i hf => hno 0 (by omega) s i rfl hf
    exact hfirst.trans (ih hrest fun k hk u i hu => hno (k + 1) (by omega) u i ((run_succ hs).trans hu))

/-- Settles O25: the rows of the compares and of the conditional branches; along a run, an induction on its length. -/
theorem comparisonFlagsOwnership : Obligations.ComparisonFlagsOwnership := by
  refine ⟨fun s t n hb hrun hno => ?run, fun i s t he hc => exec_sameFlags he hc, fun i s t he hc hr ht => ?compare,
    fun i s t t' l e g hc he he' => ?readers⟩
  case run =>
    obtain ⟨cfg, image, hboot⟩ := hb
    obtain ⟨-, rfl⟩ := boot_eq_some.1 hboot
    exact run_sameFlags hrun hno
  case compare =>
    rcases exec_compare_cases hc he with ⟨p, q, rfl⟩ | rfl
    · exact flagCount_compare s p q
    · cases ht
  case readers =>
    have hagree : AgreeOff (· ∈ [StatePart.lt, .eq, .gt]) s { s with flagLt := l, flagEq := e, flagGt := g } := by
      intro q hq
      cases q with
      | lt | eq | gt => simp at hq
      | _ => rfl
    exact exec_agree hagree (fun p hmem hp => by simp [isConditionalBranch_of_mem_reads hp hmem] at hc) he he'

/-! ## The parameters and the streams -/

theorem run_diag_grows (a : Action) (s : State) : s.diag <+: (a.run s).diag := by
  cases a with
  | stub o => exact ⟨[.notImplemented o s.ic], rfl⟩
  | _ => exact ⟨[], (List.append_nil _).trans (run_changes _ s .diag (by simp [Action.writes, mem_allSlots])).symm⟩

theorem run_conout_grows (a : Action) (s : State) : s.conout <+: (a.run s).conout := by
  cases a with
  | write f src => exact ⟨[⟨f, s.get src⟩], rfl⟩
  | _ => exact ⟨[], (List.append_nil _).trans (run_changes _ s .conout (by simp [Action.writes, mem_allSlots])).symm⟩

theorem run_envLog_grows (a : Action) (s : State) : s.envLog <+: (a.run s).envLog := by
  cases a with
  | read dst f => exact ⟨[.conRead f], (State.put_envLog (s.ask (.conRead f)) dst _).symm⟩
  | openSlot n => exact ⟨[.diskOpen n], rfl⟩
  | closeSlot n =>
    cases h : s.readHandle n with
    | true => exact ⟨[.diskClose n], by rw [Action.run, s.closeHandle_open h]; rfl⟩
    | false => exact ⟨[], by rw [Action.run, s.closeHandle_closed h, List.append_nil]⟩
  | _ => exact ⟨[], (List.append_nil _).trans (run_changes _ s .env (by simp [Action.writes, mem_allSlots])).symm⟩

/-- The parameters are the same and every stream and the record of requests has grown (R43, R44, R102). -/
structure Extends (s t : State) : Prop where
  cfg : t.cfg = s.cfg
  diag : s.diag <+: t.diag
  conout : s.conout <+: t.conout
  envLog : s.envLog <+: t.envLog

theorem Extends.refl (s : State) : Extends s s := ⟨rfl, List.prefix_rfl, List.prefix_rfl, List.prefix_rfl⟩

theorem Extends.trans {s t u : State} (h : Extends s t) (h' : Extends t u) : Extends s u :=
  ⟨h'.cfg.trans h.cfg, h.diag.trans h'.diag, h.conout.trans h'.conout, h.envLog.trans h'.envLog⟩

theorem run_extends (a : Action) (s : State) : Extends s (a.run s) :=
  ⟨run_cfg a s, run_diag_grows a s, run_conout_grows a s, run_envLog_grows a s⟩

theorem report_extends (s : State) (e : DiagEvent) : Extends s (s.report e) :=
  ⟨rfl, ⟨[e], rfl⟩, List.prefix_rfl, List.prefix_rfl⟩

theorem advance_extends (s : State) : Extends s s.advance := by
  rcases s.advance_cases with ⟨-, e⟩ | ⟨-, -, e⟩ | ⟨-, -, e⟩ <;> rw [e] <;>
    exact ⟨rfl, List.prefix_rfl, List.prefix_rfl, List.prefix_rfl⟩

theorem step_extends {s u : State} (hs : step s = .next u) : Extends s u := by
  rcases step_cases hs with ⟨-, rfl⟩ | ⟨-, w, -, ⟨i, t, -, he, rfl⟩ | ⟨o, -, rfl⟩⟩
  · exact Extends.refl u
  · exact (eq_run_of_exec he ▸ run_extends (actionOf i) s).trans (advance_extends t)
  · exact (report_extends s _).trans (advance_extends _)

/-- Settles O48: every step extends the state it starts from, so a run does, by induction on its steps. -/
theorem parametersFixedAndStreamsGrow : Obligations.ParametersFixedAndStreamsGrow := by
  intro s t ht
  have hext : Extends s t := by
    induction ht with
    | refl => exact Extends.refl s
    | tail _ hs ih => exact ih.trans (step_extends hs)
  exact ⟨hext.cfg, hext.diag, hext.conout, hext.envLog⟩

end Sys2Proof.Proofs.Ownership
end

section
/-!
PROOFS. The cycle (spec `40_dispatch_engine.md` R90 to R99, `10_state.md` R25, R34, R35, `47_halt.md`, `60_exceptions.md` R240 to R249):
where a step continues, how it ends a run, and what it leaves then.
-/

namespace Sys2Proof.Proofs.Cycle

open Sys2Proof.Machine Sys2Proof.Claims Sys2Proof.Proofs.Actions Sys2Proof.Proofs.Reads Sys2Proof.Proofs.Branch
open Sys2Proof.Proofs.Invariant Sys2Proof.Proofs.Ownership

/-! ## No step outside `RUNNING` -/

/-- Settles O11: each step is the identity. -/
theorem terminalStatesAreFinal : Obligations.TerminalStatesAreFinal := by
  intro s k hr
  induction k with
  | zero => rfl
  | succ k ih => exact (run_succ (step_stopped hr)).trans ih

/-! ## An unassigned opcode -/

/-- A step that ends in step 4 from a running state continues at the address after that state's counter (R96, R97). -/
theorem goesTo_of_step {s t : State} {ps : List StatePart} {Q : State → Prop} (hstep : step s = .next t.advance)
    (hrun : t.run = .running) (hcfg : t.cfg = s.cfg) (hframe : OnlyChanges (.ic :: ps) s t) (hQ : Q t.advance) :
    GoesTo s (unsigned (t.ic + 1)) ps Q := by
  rcases t.advance_cases with ⟨hstop, -⟩ | ⟨-, hlt, e⟩ | ⟨-, hge, e⟩
  · exact absurd hrun hstop
  · rw [hcfg] at hlt
    have hinside : OnlyChanges (.ic :: ps) s t.advance :=
      e ▸ (hframe.trans (setIc_changes t _)).mono (by grind)
    exact ⟨_, hstep, by rw [e], hQ, fun _ => ⟨by rw [e]; exact hrun, hinside⟩, fun h => absurd hlt (by omega)⟩
  · rw [hcfg] at hge
    have houtside : OnlyChanges (.ic :: .run :: .cause :: ps) s t.advance :=
      (hframe.trans (advance_changes t)).mono (by grind)
    exact ⟨_, hstep, by rw [e], hQ, fun h => absurd hge (by omega), fun _ => ⟨by rw [e], by rw [e], houtside⟩⟩

/-- Settles O10: the step is step 4 after the diagnostic. -/
theorem unknownOpcodeIsReportedNoOp : Obligations.UnknownOpcodeIsReportedNoOp := by
  intro s w hr hf hlookup
  have hstep := (step_running hr hf).trans (State.runWord_error (decode_of_lookup_none hlookup))
  have hframe : OnlyChanges [.ic, .diag] s (s.report (.unknownOpcode (fieldsOf w).op s.ic)) :=
    (s.report_changes _).mono (by simp)
  exact goesTo_of_step (t := s.report _) hstep hr rfl hframe (advance_changes _ .diag (by simp))

/-! ## The stream stubs -/

theorem stub_continues {s : State} {i : Instr} {o : Opcode} (he : exec i s = .next (s.reportNotImplemented o)) :
    (Does i s [.diag] fun t => t.diag = s.diag ++ [.notImplemented o s.ic]) ∧
      (Fetches s i → GoesTo s (nextAddress s) [.diag] fun u => u.diag = s.diag ++ [.notImplemented o s.ic]) := by
  have hframe : OnlyChanges [.ic, .diag] s (s.reportNotImplemented o) := (s.report_changes _).mono (by simp)
  exact ⟨⟨_, he, rfl, s.report_changes _⟩, fun hf =>
    goesTo_of_exec (t := s.reportNotImplemented o) hf he hf.1 rfl hframe
      (advance_changes (s.reportNotImplemented o) .diag (by simp))⟩

/-- Settles O45: both stubs are one report. -/
theorem streamStubsReportAndContinue : Obligations.StreamStubsReportAndContinue := by
  rintro s o i (rfl | rfl) <;> exact stub_continues rfl

/-! ## A store before the next fetch -/

theorem exec_st_inside {s : State} {a : Arg16} (h : a.toNat < s.cfg.memSize) (ra : RegNum) :
    exec (.st ra a) s = .next { s with mem := s.mem.write a.toNat (s.readReg ra) } :=
  congrArg Host.Outcome.next (s.store_inside (.r ra) h)

/-- Settles O12: the store leaves the word at the address that step 4 moves to. -/
theorem storedWordIsFetchedNext : Obligations.StoredWordIsFetchedNext := by
  intro s ra addr hf hnext hlt
  have hin : unsigned (s.ic + 1) < s.cfg.memSize := by
    rw [← nextAddress, ← hnext]
    exact hlt
  have hstep := step_of_fetches hf (exec_st_inside hlt ra)
  rw [State.advance_running (s := { s with mem := s.mem.write addr.toNat (s.readReg ra) }) hf.1 hin] at hstep
  refine ⟨_, hstep, hf.1, State.fetch_eq_some.2 ⟨hin, ?_⟩⟩
  rw [hnext]
  exact Memory.read_write_same _ _ _

/-! ## The counter -/

/-- A step that leaves the core running has incremented the counter (R92, R96). -/
theorem advance_ic_of_running {t : State} (h : t.advance.run = .running) : t.advance.ic = t.ic + 1 := by
  rcases t.advance_cases with ⟨hstop, e⟩ | ⟨-, -, e⟩ | ⟨-, -, e⟩
  · rw [e] at h
    exact absurd h hstop
  · rw [e]
  · rw [e]

/-- What a call that does not abort leaves in the counter and the link (R206). -/
theorem callTo_ic_jmp {s : State} (h : s.jmp = 0 ∨ s.top.val < 100) (a : Arg16) :
    (s.callTo a).ic = beforeTarget a ∧ (s.callTo a).jmp = s.ic := by
  by_cases hz : s.jmp = 0
  · rw [callTo_outermost hz]
    exact ⟨rfl, rfl⟩
  · rw [callTo_room (k := ⟨s.top.val, h.resolve_left hz⟩) hz rfl]
    exact ⟨rfl, rfl⟩

theorem returnFromCall_ic (s : State) : s.returnFromCall.ic = s.jmp := by
  by_cases h : s.top.val = 0
  · rw [State.returnFromCall_empty h]
  · rw [State.returnFromCall_pop h]

/-- The conditional branches with their conditions are the branch operation under those conditions (R191, R193 to R198). -/
theorem exec_conditional {a : Arg16} {i : Instr} {taken : Bool} {s : State}
    (h : (i, taken) ∈ [(.brlt a, s.flagLt), (.breq a, s.flagEq), (.brgt a, s.flagGt), (.brle a, s.flagLt || s.flagEq),
      (.brge a, s.flagGt || s.flagEq), (.brgl a, s.flagGt || s.flagLt)]) : exec i s = .next (s.branchIf taken a) := by
  simp only [List.mem_cons, Prod.mk.injEq, List.not_mem_nil, or_false] at h
  rcases h with ⟨rfl, rfl⟩ | ⟨rfl, rfl⟩ | ⟨rfl, rfl⟩ | ⟨rfl, rfl⟩ | ⟨rfl, rfl⟩ | ⟨rfl, rfl⟩ <;> rfl

/-- No instruction but `CALL` takes the counter into a register: the others do not read it, or write nothing but `DIAG`. -/
theorem registers_independent_of_ic {i : Instr} {s t t' : State} {c : Word} (hcall : ∀ a, i ≠ .call a)
    (he : exec i s = .next t) (he' : exec i { s with ic := c } = .next t') :
    t'.x = t.x ∧ t'.acc = t.acc ∧ t'.jmp = t.jmp := by
  by_cases hstub : ∃ o, actionOf i = .stub o
  · obtain ⟨o, ho⟩ := hstub
    rw [eq_run_of_exec he, eq_run_of_exec he', ho]
    exact ⟨rfl, rfl, rfl⟩
  · have hagree : AgreeOff (· = .ic) s { s with ic := c } := by
      intro q hq
      cases q with
      | ic => exact absurd rfl hq
      | _ => rfl
    have hreads : ∀ p ∈ reads (actionOf i), ¬p = .ic := by
      rintro _ hmem rfl
      rcases call_or_stub_of_ic_mem_reads hmem with ⟨a, e⟩ | hs
      · exact hcall a e
      · exact hstub hs
    have h := exec_agree hagree hreads he he'
    exact ⟨x_eq_of_readReg fun n => h (.reg n) nofun, h .acc nofun, h .jmp nofun⟩

/-- Settles O13: the rows that write the counter, and what each of them writes there. -/
theorem onlyTransfersWriteTheCounter : Obligations.OnlyTransfersWriteTheCounter := by
  refine ⟨fun i s t he hno => ?others, fun i s t u hf he hs hu => ?next, fun a s t he => ?bran, fun a s t he hroom => ?call,
    fun a i taken s t hmem he => ?conditional, fun s t he => ?ret, fun i s t t' c => registers_independent_of_ic⟩
  case others => exact exec_same he (p := .ic) fun hmem => by simp [isTransfer_of_mem_writes hmem] at hno
  case next =>
    rw [step_of_fetches hf he] at hs
    cases hs
    exact advance_ic_of_running hu
  case bran =>
    cases he
    exact beforeTarget_add_one a
  case call =>
    cases he
    obtain ⟨hic, hjmp⟩ := callTo_ic_jmp hroom a
    exact ⟨by rw [hic, beforeTarget_add_one], hjmp⟩
  case conditional =>
    rw [exec_conditional hmem] at he
    cases he
    cases taken with
    | true => exact beforeTarget_add_one a
    | false => rfl
  case ret =>
    cases he
    exact returnFromCall_ic s

/-! ## The halts -/

theorem halt_step {s : State} {i : Instr} {r : RunState} (he : exec i s = .next (s.haltAs r)) (hr : r ≠ .running)
    (hf : Fetches s i) : ∃ u, step s = .next u ∧ u.run = r ∧ OnlyChanges [.run] s u := by
  have hstep := step_of_fetches hf he
  rw [State.advance_stopped (s := s.haltAs r) hr] at hstep
  exact ⟨_, hstep, rfl, s.haltAs_changes r⟩

/-- Settles O36: the halt changes the run state, after which step 4 does nothing. -/
theorem haltStopsAtItsOwnAddress : Obligations.HaltStopsAtItsOwnAddress := fun s =>
  ⟨⟨_, rfl, ⟨rfl, rfl⟩, s.haltAs_changes _⟩, ⟨_, rfl, ⟨rfl, rfl⟩, s.haltAs_changes _⟩, halt_step rfl (by decide),
    halt_step rfl (by decide)⟩

/-! ## The aborts -/

/-- An action raises one abort at most. -/
theorem raises_unique {s : State} {c c' : AbortCause} {a : Action} (h : Raises s c a) (h' : Raises s c' a) : c = c' := by
  cases a with
  | load | store | compareMem | call => exact h.1.trans h'.1.symm
  | _ => exact h.elim

/-- The instructions that raise `DATA_OOB` are those that name a cell, where it does not exist (R242). -/
theorem raises_dataOob_iff {s : State} {i : Instr} :
    Raises s .dataOob (actionOf i) ↔ ∃ a, namedCell i = some a ∧ s.cfg.memSize ≤ a.toNat := by
  cases i <;> simp [actionOf, Raises, namedCell, dataAddress]

/-- `CALL` raises `CSTACK_OOB`, with a non-zero link on a full stack (R243). -/
theorem raises_cstackOob_iff {s : State} {i : Instr} :
    Raises s .cstackOob (actionOf i) ↔ (∃ a, i = .call a) ∧ s.jmp ≠ 0 ∧ s.top.val = 100 := by
  cases i <;> simp [actionOf, Raises]

theorem fetches_unique {s : State} {i j : Instr} (hi : Fetches s i) (hj : Fetches s j) : i = j := by
  obtain ⟨-, w, hw, hd⟩ := hi
  obtain ⟨-, w', hw', hd'⟩ := hj
  obtain rfl : w = w' := Option.some.inj (hw.symm.trans hw')
  exact Except.ok.inj (hd.symm.trans hd')

/-- Everything the step of a running core without a cause can be: the abort the fetched instruction raises; a halt; or step 4,
after an instruction or a report that raised nothing (R248). -/
theorem step_end_cases {s u : State} (hr : s.run = .running) (hc : s.cause = .none) (hs : step s = .next u) :
    (∃ i c, Fetches s i ∧ Raises s c (actionOf i) ∧ u = s.abort c) ∨
      ((∀ i c, Fetches s i → ¬Raises s c (actionOf i)) ∧
        ((u.cause = .none ∧ (u.run = .haltedOk ∨ u.run = .haltedError)) ∨
          ∃ t : State, t.run = .running ∧ t.cause = .none ∧ t.cfg = s.cfg ∧ u = t.advance)) := by
  rcases step_cases hs with ⟨hstop, -⟩ | ⟨-, w, hw, ⟨i, t, hd, he, rfl⟩ | ⟨o, hd, rfl⟩⟩
  · exact absurd hr hstop
  · have hf : Fetches s i := ⟨hr, w, hw, hd⟩
    obtain rfl := eq_run_of_exec he
    rcases completes_or_aborts (actionOf i) s with ⟨hno, hkept, hrun⟩ | ⟨c, hraises, e⟩
    · refine .inr ⟨fun j c hj => fetches_unique hf hj ▸ hno c, ?_⟩
      rcases hrun with e | ⟨-, e⟩ | ⟨-, e⟩
      · exact .inr ⟨_, e.trans hr, hkept.trans hc, run_cfg _ s, rfl⟩
      · rw [State.advance_stopped (by simp [e])]
        exact .inl ⟨hkept.trans hc, .inl e⟩
      · rw [State.advance_stopped (by simp [e])]
        exact .inl ⟨hkept.trans hc, .inr e⟩
    · refine .inl ⟨i, c, hf, hraises, ?_⟩
      rw [e, State.advance_stopped (by simp)]
  · refine .inr ⟨?_, .inr ⟨s.report (.unknownOpcode o s.ic), hr, hc, rfl, rfl⟩⟩
    rintro j c ⟨-, w', hw', hd'⟩
    obtain rfl : w = w' := Option.some.inj (hw.symm.trans hw')
    cases hd.symm.trans hd'

/-- The step of a running core without a cause ends in a handler's cause exactly where the fetched instruction raises it. -/
theorem step_cause_iff_raises {s u : State} (hr : s.run = .running) (hc : s.cause = .none) (hs : step s = .next u)
    {c : AbortCause} (hcause : c = .dataOob ∨ c = .cstackOob) :
    u.cause = c ↔ ∃ i, Fetches s i ∧ Raises s c (actionOf i) := by
  rcases step_end_cases hr hc hs with ⟨i, c', hf, hraises, rfl⟩ | ⟨hno, hend⟩
  · constructor
    · rintro rfl
      exact ⟨i, hf, hraises⟩
    · rintro ⟨j, hj, hj'⟩
      exact raises_unique hraises (fetches_unique hj hf ▸ hj')
  · have hne : u.cause ≠ c := by
      rcases hend with ⟨e, -⟩ | ⟨t, ht, htc, -, rfl⟩
      · rw [e]
        rcases hcause with rfl | rfl <;> decide
      · rcases t.advance_cases with ⟨hstop, -⟩ | ⟨-, -, e⟩ | ⟨-, -, e⟩
        · exact absurd ht hstop
        · rw [e]
          rcases hcause with rfl | rfl <;> simp [htc]
        · rw [e]
          rcases hcause with rfl | rfl <;> simp
    exact iff_of_false hne fun ⟨i, hf, hraises⟩ => hno i c hf hraises

/-- Settles O38: the four clauses over the ends of a step. -/
theorem abortsExactlyWhenOutOfBounds : Obligations.AbortsExactlyWhenOutOfBounds := by
  intro s u hr hc hs
  refine ⟨?aborted, ?dataOob, ?cstackOob, ?icOob⟩
  case dataOob =>
    rw [step_cause_iff_raises hr hc hs (.inl rfl)]
    simp only [raises_dataOob_iff, exists_and_left]
  case cstackOob =>
    rw [step_cause_iff_raises hr hc hs (.inr rfl)]
    simp only [raises_cstackOob_iff]
    exact ⟨fun ⟨i, hf, ⟨a, ha⟩, hfull⟩ => ⟨⟨a, ha ▸ hf⟩, hfull⟩, fun ⟨⟨a, hf⟩, hfull⟩ => ⟨_, hf, ⟨a, rfl⟩, hfull⟩⟩
  case aborted =>
    rcases step_end_cases hr hc hs with ⟨i, c, -, hraises, rfl⟩ | ⟨-, ⟨e, hrun⟩ | ⟨t, ht, htc, -, rfl⟩⟩
    · rcases raises_cause hraises with rfl | rfl <;> simp
    · rcases hrun with e' | e' <;> simp [e, e']
    · rcases t.advance_cases with ⟨hstop, -⟩ | ⟨-, -, e⟩ | ⟨-, -, e⟩
      · exact absurd ht hstop
      · simp [e, ht, htc]
      · simp [e]
  case icOob =>
    rcases step_end_cases hr hc hs with ⟨i, c, -, hraises, rfl⟩ | ⟨-, ⟨e, hrun⟩ | ⟨t, ht, htc, hcfg, rfl⟩⟩
    · rcases raises_cause hraises with rfl | rfl <;> simp
    · rcases hrun with e' | e' <;> simp [e, e']
    · rcases t.advance_cases with ⟨hstop, -⟩ | ⟨-, hlt, e⟩ | ⟨-, hge, e⟩
      · exact absurd ht hstop
      · rw [hcfg] at hlt
        simpa [e, htc, ht] using hlt
      · rw [hcfg] at hge
        simpa [e] using hge

/-- Settles O39: a handler's cause comes from the abort alone. -/
theorem handlerAbortsArePrecise : Obligations.HandlerAbortsArePrecise := by
  intro s u hr hc hs hcause
  rcases step_end_cases hr hc hs with ⟨i, c, -, -, rfl⟩ | ⟨hno, -⟩
  · exact s.abort_changes c
  · obtain ⟨i, hf, hraises⟩ := (step_cause_iff_raises hr hc hs hcause).1 rfl
    exact absurd hraises (hno i _ hf)

/-! ## What the environment reads -/

/-- For parameters in bounds the exit code names the run state (R35, R6). -/
theorem run_eq_of_exitCode_eq {s t : State} (hwf : s.cfg.wf) (hcfg : t.cfg = s.cfg) (h : s.exitCode = t.exitCode) :
    s.run = t.run := by
  obtain ⟨-, -, hzero, htwo⟩ := hwf
  cases hs : s.run <;> cases ht : t.run <;> simp_all [State.exitCode, eq_comm]

/-- Settles O40: the exit code by the run state; a step keeps the parameters. -/
theorem exitCodesDistinguishOutcomes : Obligations.ExitCodesDistinguishOutcomes := by
  refine ⟨fun s => ⟨?running, ?ok, ?error, ?aborted, ⟨rfl, rfl, rfl, rfl, rfl, rfl, rfl, rfl, rfl⟩⟩,
    fun s u hs hu => ?step, fun s t => run_eq_of_exitCode_eq⟩
  case step => rw [State.exitCode, hu, ← (step_extends hs).cfg]
  all_goals
    intro hr
    simp [State.outcome, State.exitCode, hr]

end Sys2Proof.Proofs.Cycle
end

section
/-!
PROOFS. What each family of instructions computes (spec files `41` to `45`, `48`, `49`): the value each action leaves in the one part
it is for, with the action's frame.
-/

namespace Sys2Proof.Proofs.Values

open Sys2Proof.Machine Sys2Proof.Claims Sys2Proof.Proofs.Actions Sys2Proof.Proofs.Arithmetic Sys2Proof.Proofs.BitwiseShift
open Sys2Proof.Proofs.Branch Sys2Proof.Proofs.Dispatch Sys2Proof.Proofs.Invariant Sys2Proof.Proofs.Cycle

/-! ## Move, load and store -/

/-- An instruction that puts a word into a register operand copies it there and changes nothing else. -/
theorem does_put {i : Instr} {s : State} {p : Place} {v : Word} (he : exec i s = .next (s.put p v)) :
    Does i s [p.part] fun t => t.get p = v :=
  ⟨_, he, s.get_put_same p v, s.put_changes p v⟩

/-- An immediate is extended with zeros (R75). -/
theorem unsigned_immediate (v : Arg16) : unsigned (immediate v) = v.toNat := by
  simp only [immediate, zext16, unsigned, BitVec.truncate_eq_setWidth, BitVec.toNat_setWidth]
  omega

theorem does_put_immediate {i : Instr} {s : State} {p : Place} {v : Arg16} (he : exec i s = .next (s.put p (immediate v))) :
    Does i s [p.part] fun t => unsigned (t.get p) = v.toNat := by
  obtain ⟨t, ht, hget, hframe⟩ := does_put he
  exact ⟨t, ht, (congrArg _ hget).trans (unsigned_immediate v), hframe⟩

theorem does_load {i : Instr} {s : State} {p : Place} {a : Arg16} (he : exec i s = .next (s.load p a))
    (h : dataAddress a < s.cfg.memSize) : Does i s [p.part] fun t => t.get p = s.mem.read (dataAddress a) :=
  does_put (by rw [he, s.load_inside p h])

theorem does_store {i : Instr} {s : State} {p : Place} {a : Arg16} (he : exec i s = .next (s.store p a))
    (h : dataAddress a < s.cfg.memSize) :
    Does i s [.word (dataAddress a)] fun t => t.mem.read (dataAddress a) = s.get p :=
  ⟨_, he, by rw [s.store_inside p h]; exact Memory.read_write_same _ _ _, s.store_changes p h⟩

theorem abortsData_of_exec {i : Instr} {s t : State} (he : exec i s = .next t) (ht : t = s.abort .dataOob) :
    AbortsData i s :=
  ⟨_, he, ht ▸ ⟨rfl, rfl⟩, ht ▸ s.abort_changes .dataOob⟩

/-- Settles O14: each of the sixteen puts one word into its destination; a cell that does not exist aborts. -/
theorem movesCopyOneWord : Obligations.MovesCopyOneWord := by
  refine ⟨moveEncodings_hold, fun s ra rb v => ⟨does_put (p := .r ra) rfl, does_put (p := .r ra) rfl,
    does_put (p := .a) rfl, does_put (p := .r ra) rfl, does_put (p := .j) rfl, does_put (p := .a) rfl,
    does_put (p := .j) rfl, does_put_immediate (p := .r ra) rfl, does_put_immediate (p := .a) rfl,
    does_put_immediate (p := .j) rfl, fun h => ?inside, fun h => ?outside⟩⟩
  case inside =>
    exact ⟨does_load (p := .r ra) rfl h, does_load (p := .a) rfl h, does_load (p := .j) rfl h,
      does_store (p := .r ra) rfl h, does_store (p := .a) rfl h, does_store (p := .j) rfl h⟩
  case outside =>
    exact ⟨abortsData_of_exec rfl (s.load_outside _ h), abortsData_of_exec rfl (s.load_outside _ h),
      abortsData_of_exec rfl (s.load_outside _ h), abortsData_of_exec rfl (s.store_outside _ h),
      abortsData_of_exec rfl (s.store_outside _ h), abortsData_of_exec rfl (s.store_outside _ h)⟩

theorem exec_ld_inside {s : State} {b : Arg16} (h : b.toNat < s.cfg.memSize) (rd : RegNum) :
    exec (.ld rd b) s = .next (s.put (.r rd) (s.mem.read b.toNat)) :=
  congrArg Host.Outcome.next (s.load_inside (.r rd) h)

/-- Settles O15: a read after a write of memory. -/
theorem loadAfterStoreReturnsTheWord : Obligations.LoadAfterStoreReturnsTheWord := by
  intro s t u ra rd a b hst hld ha hb
  rw [exec_st_inside ha] at hst
  cases hst
  rw [exec_ld_inside (s := { s with mem := s.mem.write a.toNat (s.readReg ra) }) hb] at hld
  cases hld
  refine (State.get_put_same _ (.r rd) _).trans ?_
  rw [Memory.read_write]
  simp only [BitVec.toNat_inj, eq_comm]

/-! ## Multiply -/

/-- Settles O18: the flag is that of the exact product, which is 0 where an operand is. -/
theorem multiplyOverflowIsExact : Obligations.MultiplyOverflowIsExact := by
  refine fun s => mult_forms.does s.multOp_changes fun p q => ⟨fun hzero => ?zero, (multOp_narrows s p q).ovf⟩
  case zero =>
    have hprod : signed (s.get p) * signed (s.get q) = 0 := by
      rcases hzero with h | h <;> simp [h]
    obtain ⟨hacc, hovf⟩ := multOp_narrows s p q
    rw [hprod] at hacc hovf
    refine ⟨BitVec.eq_of_toInt_eq hacc, ?_⟩
    rw [← Bool.not_eq_true, hovf, Overflows]
    decide

/-! ## Division at the edge of the range -/

theorem signed_range (w : Word) : -2147483648 ≤ signed w ∧ signed w ≤ 2147483647 := by
  have hlo : -2 ^ 31 ≤ w.toInt := w.le_toInt
  have hhi : w.toInt < 2 ^ 31 := w.toInt_lt
  exact ⟨hlo, Int.le_of_lt_add_one hhi⟩

/-- A value a signed word can hold is not changed by the narrowing (R9). -/
theorem wrapped_of_fits {z : Int} (h : ¬Overflows z) : wrapped z = z := by
  by_contra hne
  exact h ((overflows_iff_wrapped_ne z).2 hne)

/-- The quotient of two words fits but for `MIN` by -1: a divisor of another size makes it smaller than the dividend (R135). -/
theorem tdiv_fits {p q : Word} (hq : signed q ≠ 0) (hedge : ¬(signed p = -2147483648 ∧ signed q = -1)) :
    ¬Overflows ((signed p).tdiv (signed q)) := by
  have hp := signed_range p
  by_cases hone : signed q = 1
  · rw [hone, Int.tdiv_one, Overflows]
    omega
  by_cases hminus : signed q = -1
  · rw [hminus, Int.tdiv_neg, Int.tdiv_one, Overflows]
    omega
  · have habs : ((signed p).tdiv (signed q)).natAbs = (signed p).natAbs / (signed q).natAbs := Int.natAbs_tdiv _ _
    have hhalf : (signed p).natAbs / (signed q).natAbs ≤ (signed p).natAbs / 2 :=
      Nat.div_le_div_left (by omega) (by decide)
    rw [Overflows]
    omega

/-- A remainder is smaller than the divisor, so it fits. -/
theorem tmod_fits (p : Word) {q : Word} (hq : signed q ≠ 0) : ¬Overflows ((signed p).tmod (signed q)) := by
  have hlt := abs_tmod_lt (signed p) hq
  have hq := signed_range q
  rw [abs_lt] at hlt
  rw [Overflows]
  have habs : |signed q| ≤ 2147483648 := abs_le.2 ⟨by omega, by omega⟩
  omega

/-- Settles O20: every quotient but one and every remainder fits, so the narrowing of the division leaves it exact. -/
theorem onlyMinByMinusOneWraps : Obligations.OnlyMinByMinusOneWraps := by
  intro s
  have hne : ∀ {q : Word}, signed q = -1 → q ≠ 0 := by
    rintro _ h rfl
    exact absurd h (by decide)
  refine ⟨div_forms.does (s.divideOp_changes _) fun p q => ⟨fun ⟨hmin, hminus⟩ => ?divEdge, fun hq hedge => ?div⟩,
    mod_forms.does (s.divideOp_changes _) fun p q => ⟨fun ⟨hmin, hminus⟩ => ?modEdge, fun hq => ?mod⟩⟩
  case divEdge =>
    obtain ⟨hdbz, hacc⟩ := divideOp_nonzero_divisor s Int.tdiv (p := p) (hne hminus)
    rw [hmin, hminus] at hacc
    exact ⟨hacc, hdbz⟩
  case div =>
    obtain ⟨-, hacc⟩ := divideOp_nonzero_divisor s Int.tdiv (p := p) hq
    rw [wrapped_of_fits (tdiv_fits (signed_ne_zero hq) hedge)] at hacc
    exact ⟨_, hacc ▸ truncates_tdiv_tmod _ (signed_ne_zero hq)⟩
  case modEdge =>
    obtain ⟨hdbz, hacc⟩ := divideOp_nonzero_divisor s Int.tmod (p := p) (hne hminus)
    rw [hmin, hminus] at hacc
    exact ⟨BitVec.eq_of_toInt_eq hacc, hdbz⟩
  case mod =>
    obtain ⟨-, hacc⟩ := divideOp_nonzero_divisor s Int.tmod (p := p) hq
    rw [wrapped_of_fits (tmod_fits _ (signed_ne_zero hq))] at hacc
    exact ⟨_, hacc ▸ truncates_tdiv_tmod _ (signed_ne_zero hq)⟩

/-! ## Bitwise and shift -/

/-- `NOT p = -p - 1` (R156). -/
theorem signed_not (p : Word) : signed (~~~p) = -signed p - 1 := by
  have hlt := p.isLt
  simp only [signed, BitVec.toInt_eq_toNat_cond, BitVec.toNat_not]
  split <;> split <;> omega

theorem does_not {i : Instr} {s : State} {p : Place} (he : exec i s = .next (s.notOp p)) :
    Does i s [.acc] fun t =>
      (∀ k < 32, t.acc.getLsbD k = !(s.get p).getLsbD k) ∧ signed t.acc = -signed (s.get p) - 1 :=
  ⟨_, he, ⟨fun k hk => by simp [State.notOp, hk], signed_not (s.get p)⟩, s.put_changes .a _⟩

/-- Settles O22: a bit of the result is the operation on the operands' bits there. -/
theorem bitwiseActsBitByBit : Obligations.BitwiseActsBitByBit := fun s =>
  ⟨and_forms.does (fun _ _ => s.put_changes .a _) fun _ _ _ => BitVec.getLsbD_and,
    or_forms.does (fun _ _ => s.put_changes .a _) fun _ _ _ => BitVec.getLsbD_or,
    fun ra => does_not (p := .r ra) rfl, does_not (p := .a) rfl, does_not (p := .j) rfl⟩

/-- The shift amount is the second operand modulo 32 (R157). -/
theorem shiftAmount_eq (q : Word) : shiftAmount q = unsigned q % 32 := by
  simp [shiftAmount, BitVec.extractLsb'_toNat]

/-- Multiplying by a power of two moves the bits up (R157). -/
theorem wrap32_mul_two_pow (v : Word) (n : Nat) : wrap32 (signed v * 2 ^ n) = v <<< n := by
  apply BitVec.eq_of_toInt_eq
  rw [wrap32, BitVec.toInt_ofInt, BitVec.toInt_shiftLeft, signed, BitVec.toInt_eq_toNat_bmod, Int.bmod_mul_bmod,
    Nat.shiftLeft_eq]
  push_cast
  rfl

/-- Dividing by a power of two, rounded down, moves the bits down and keeps the sign (R157). -/
theorem wrap32_fdiv_two_pow (v : Word) (n : Nat) : wrap32 (Int.fdiv (signed v) (2 ^ n)) = v.sshiftRight n := by
  have hpos : (0 : Int) ≤ 2 ^ n := by positivity
  rw [Int.fdiv_eq_ediv_of_nonneg _ hpos, wrap32, ← BitVec.ofInt_toInt (x := v.sshiftRight n), BitVec.toInt_sshiftRight,
    Int.shiftRight_eq_div_pow]
  push_cast
  rfl

theorem getLsbD_shl (v : Word) {k : Nat} (hk : k < 32) (n : Nat) :
    (wrap32 (signed v * 2 ^ n)).getLsbD k = (decide (n ≤ k) && v.getLsbD (k - n)) := by
  rw [wrap32_mul_two_pow, BitVec.getLsbD_shiftLeft]
  by_cases h : n ≤ k <;> simp [hk, h]

theorem getLsbD_shr (v : Word) {k : Nat} (hk : k < 32) (n : Nat) :
    (wrap32 (Int.fdiv (signed v) (2 ^ n))).getLsbD k = v.getLsbD (min (k + n) 31) := by
  rw [wrap32_fdiv_two_pow, BitVec.getLsbD_sshiftRight, BitVec.msb_eq_getLsbD_last]
  by_cases h : n + k < 32
  · have hmin : min (k + n) 31 = n + k := by omega
    simp [h, hmin, hk]
  · have hmin : min (k + n) 31 = 31 := by omega
    simp [h, hmin, hk]

/-- Settles O23: the two shifts as moves of bits, by the amount modulo 32. -/
theorem shiftsMoveBits : Obligations.ShiftsMoveBits := by
  intro s
  refine ⟨shl_forms.does (fun _ _ => s.put_changes .a _) fun p q k hk => ?shl,
    shr_forms.does (fun _ _ => s.put_changes .a _) fun p q k hk => ?shr⟩
  case shl => exact shiftAmount_eq (s.get q) ▸ getLsbD_shl (s.get p) hk (shiftAmount (s.get q))
  case shr => exact shiftAmount_eq (s.get q) ▸ getLsbD_shr (s.get p) hk (shiftAmount (s.get q))

/-! ## Compare -/

/-- What the comparison of two words leaves in the three flags (R180). -/
theorem compare_flags (s : State) (p q : Word) :
    ((s.compare p q).flagLt = true ↔ signed p < signed q) ∧ ((s.compare p q).flagEq = true ↔ p = q) ∧
      ((s.compare p q).flagGt = true ↔ signed q < signed p) ∧
      (s.compare p q).flagLt.toNat + (s.compare p q).flagEq.toNat + (s.compare p q).flagGt.toNat = 1 := by
  refine ⟨?_, ?_, ?_, flagCount_compare s p q⟩ <;> simp [BitVec.toInt_inj]

theorem compare_forms : FormsOf State.compareOp .cmp .cmpar .cmpaj := ⟨fun _ _ _ => rfl, fun _ _ => rfl, fun _ => rfl⟩

/-- Settles O24: all five compare two words, two of them the word of a cell, where it exists. -/
theorem compareSetsExactlyOneFlag : Obligations.CompareSetsExactlyOneFlag := by
  refine fun s a ra => ⟨compare_forms.does (fun p q => s.compare_changes _ _) fun p q => compare_flags s _ _, ?memory⟩
  have hmem : ∀ i p, exec i s = .next (s.compareMem p a) →
      (a.toNat < s.cfg.memSize →
        Does i s [.lt, .eq, .gt] fun t => (t.flagLt = true ↔ signed (s.get p) < signed (s.mem.read a.toNat)) ∧
          (t.flagEq = true ↔ s.get p = s.mem.read a.toNat) ∧
          (t.flagGt = true ↔ signed (s.mem.read a.toNat) < signed (s.get p)) ∧
          t.flagLt.toNat + t.flagEq.toNat + t.flagGt.toNat = 1) ∧
      (s.cfg.memSize ≤ a.toNat → AbortsData i s) := fun i p he =>
    ⟨fun h => ⟨_, he.trans (congrArg _ (s.compareMem_inside p h)), compare_flags s _ _, s.compare_changes _ _⟩,
      fun h => abortsData_of_exec he (s.compareMem_outside p h)⟩
  rintro i p (⟨rfl, rfl⟩ | ⟨rfl, rfl⟩)
  · exact hmem _ (.r ra) rfl
  · exact hmem _ .a rfl

/-! ## Branches -/

/-- Settles O30: the branch operation under each of the four conditions. -/
theorem branchOnTheOtherConditions : Obligations.BranchOnTheOtherConditions := fun _ _ =>
  ⟨branchIf_branches rfl, branchIf_branches rfl, branchIf_branches rfl, branchIf_branches rfl⟩

/-! ## Console and disk -/

/-- Settles O41: both append one event. -/
theorem consoleWriteAppends : Obligations.ConsoleWriteAppends := fun s _ _ =>
  ⟨⟨_, rfl, rfl, s.conOut_changes _ _⟩, ⟨_, rfl, rfl, s.conOut_changes _ _⟩⟩

/-- What a console read leaves, for any answer (R220). -/
theorem consoleRead_get (s : State) (dst : Place) (f : Fmt) :
    (s.consoleRead dst f).get dst =
      if (Config.conRead s.sent f).1 then (Config.conRead s.sent f).2 else s.get dst := by
  have hput := (s.ask (.conRead f)).get_put_same dst
    (if (Config.conRead s.sent f).1 then (Config.conRead s.sent f).2 else s.get dst)
  cases dst <;> exact hput

theorem does_consoleRead {i : Instr} {s : State} {dst : Place} {f : Fmt} (he : exec i s = .next (s.consoleRead dst f)) :
    Does i s [dst.part, .ioerr, .env] fun t =>
      t.get dst = (if (Config.conRead s.sent f).1 then (Config.conRead s.sent f).2 else s.get dst) ∧
      t.flagIoerr = !(Config.conRead s.sent f).1 ∧ t.envLog = s.envLog ++ [.conRead f] :=
  ⟨_, he, ⟨consoleRead_get s dst f, rfl, State.put_envLog (s.ask _) dst _⟩, s.consoleRead_changes dst f⟩

/-- Settles O42: both are the console read of their destination. -/
theorem consoleReadTakesTheAnswer : Obligations.ConsoleReadTakesTheAnswer := fun _ ra _ =>
  ⟨does_consoleRead (dst := .r ra) rfl, does_consoleRead (dst := .a) rfl⟩

theorem openHandle_readHandle (s : State) (n : Slot) :
    (s.openHandle n).readHandle n = if Config.diskOpen s.sent n then true else s.readHandle n := by
  have h : (s.openHandle n).readHandle n = (Config.diskOpen s.sent n || s.readHandle n) :=
    (State.readHandle_writeHandle (s.ask _) n n _).trans (if_pos rfl)
  rw [h]
  cases Config.diskOpen s.sent n <;> rfl

/-- Settles O43: the slot, the flag and the record after any answer. -/
theorem openTakesTheAnswer : Obligations.OpenTakesTheAnswer := fun s n =>
  ⟨_, rfl, ⟨openHandle_readHandle s n, rfl, rfl⟩, s.openHandle_changes n⟩

/-- Settles O44: a closed slot leaves the state as it is. -/
theorem closeOnlyActsOnOpenSlots : Obligations.CloseOnlyActsOnOpenSlots := by
  refine fun s n => ⟨fun h => ?opened, fun h => ?closed⟩
  case opened =>
    have he : exec (.closeSlot n) s = .next ((s.ask (.diskClose n)).writeHandle n false) :=
      congrArg Host.Outcome.next (s.closeHandle_open h)
    have hclosed : ((s.ask (.diskClose n)).writeHandle n false).readHandle n = false :=
      (State.readHandle_writeHandle _ n n false).trans (if_pos rfl)
    exact ⟨_, he, ⟨hclosed, rfl⟩, ((s.ask_changes _).trans (State.writeHandle_changes _ n false)).mono (by simp)⟩
  case closed =>
    have he : exec (.closeSlot n) s = .next s := congrArg Host.Outcome.next (s.closeHandle_closed h)
    exact ⟨s, he, trivial, OnlyChanges.refl _ s⟩

end Sys2Proof.Proofs.Values
end

section
/-!
PROOFS. Call and return (spec `46_call_return.md` R205 to R210): a call without a push, a call into slot `k`, a call on a full
stack, and the two returns; then a call with its return, and calls inside calls.
-/

namespace Sys2Proof.Proofs.CallReturn

open Sys2Proof.Machine Sys2Proof.Claims Sys2Proof.Proofs.Actions Sys2Proof.Proofs.Branch Sys2Proof.Proofs.Ownership
open Sys2Proof.Proofs.Dispatch

/-! ## One instruction and its step -/

theorem exec_call (s : State) (a : Arg16) : exec (.call a) s = .next (s.callTo a) := rfl

theorem exec_ret (s : State) : exec .ret s = .next s.returnFromCall := rfl

/-- What an instruction leaves in the parts that step 4 does not write, the step leaves there (R96, R97). -/
theorem advance_same (t : State) {p : StatePart} (hp : p ∉ [StatePart.ic, .run, .cause]) : p.Same t t.advance :=
  advance_changes t p hp

/-- A call that pushes nothing (R206). -/
theorem call_outermost {s : State} (hz : s.jmp = 0) (a : Arg16) :
    (Does (.call a) s [.jmp, .ic] fun t => t.jmp = s.ic ∧ unsigned (t.ic + 1) = a.toNat) ∧
      (Fetches s (.call a) → GoesTo s a.toNat [.jmp] fun u => u.jmp = s.ic) := by
  have he : exec (.call a) s = .next (s.linkAndGo a) := congrArg Host.Outcome.next (callTo_outermost hz a)
  refine ⟨⟨_, he, ⟨rfl, beforeTarget_add_one a⟩, s.linkAndGo_changes a⟩, fun hf => ?step⟩
  rw [← beforeTarget_add_one a]
  exact goesTo_of_exec (t := s.linkAndGo a) hf he hf.1 rfl ((s.linkAndGo_changes a).mono (by simp))
    (advance_same _ (p := .jmp) (by simp))

/-- A call that pushes the link into the free slot `k` (R206, R208). -/
theorem call_pushing {s : State} {k : Fin 100} (hz : s.jmp ≠ 0) (hk : s.top.val = k.val) (a : Arg16) :
    (Does (.call a) s [.jmp, .ic, .top, .slot k] fun t =>
      t.jmp = s.ic ∧ unsigned (t.ic + 1) = a.toNat ∧ t.cstack[k.val] = s.jmp ∧ t.top.val = k.val + 1) ∧
      (Fetches s (.call a) → GoesTo s a.toNat [.jmp, .top, .slot k] fun u =>
        u.jmp = s.ic ∧ u.cstack[k.val] = s.jmp ∧ u.top.val = k.val + 1) := by
  have he : exec (.call a) s = .next ((pushed s k s.jmp).linkAndGo a) :=
    congrArg Host.Outcome.next (callTo_room hz hk a)
  have hframe := pushed_linkAndGo_changes s k s.jmp a
  have hslot : ((pushed s k s.jmp).linkAndGo a).cstack[k.val] = s.jmp := by simp [pushed]
  refine ⟨⟨_, he, ⟨rfl, beforeTarget_add_one a, hslot, rfl⟩, hframe⟩, fun hf => ?step⟩
  rw [← beforeTarget_add_one a]
  refine goesTo_of_exec (t := (pushed s k s.jmp).linkAndGo a) hf he hf.1 rfl (hframe.mono (by simp)) ⟨?_, ?_, ?_⟩
  · exact advance_same _ (p := .jmp) (by simp)
  · exact Eq.trans (advance_same _ (p := .slot k) (by simp)) hslot
  · exact congrArg Fin.val (advance_same _ (p := .top) (by simp))

/-- A call with a link on a full stack (R206, R243). -/
theorem call_full {s : State} (hz : s.jmp ≠ 0) (hfull : s.top.val = 100) (a : Arg16) :
    (Does (.call a) s [.run, .cause] fun t => t.run = .abortedOob ∧ t.cause = .cstackOob) ∧
      (Fetches s (.call a) → ∃ u, step s = .next u ∧ u.run = .abortedOob ∧ u.cause = .cstackOob ∧
        OnlyChanges [.run, .cause] s u) := by
  have he : exec (.call a) s = .next (s.abort .cstackOob) := congrArg Host.Outcome.next (callTo_full hz hfull a)
  refine ⟨⟨_, he, ⟨rfl, rfl⟩, s.abort_changes _⟩, fun hf => ?step⟩
  have hstep := step_of_fetches hf he
  rw [State.advance_stopped (by simp)] at hstep
  exact ⟨_, hstep, rfl, rfl, s.abort_changes _⟩

/-- Settles O31: the row of opcode 0x90, and the three cases of a call. -/
theorem callLinksAndPushes : Obligations.CallLinksAndPushes :=
  ⟨callEncodings_hold.1, fun _ a => ⟨fun hz => call_outermost hz a, fun _ hz => call_pushing hz rfl a,
    fun hz hfull => call_full hz hfull a⟩⟩

/-- A return on an empty stack (R207). -/
theorem ret_empty {s : State} (hz : s.top.val = 0) :
    (Does .ret s [.ic, .jmp, .slot 0] fun t => t.ic = s.jmp ∧ t.jmp = s.cstack[0] ∧ t.cstack[0] = 0) ∧
      (Fetches s .ret → GoesTo s (unsigned (s.jmp + 1)) [.jmp, .slot 0] fun u =>
        u.jmp = s.cstack[0] ∧ u.cstack[0] = 0) := by
  have hic : s.returnFromCall.ic = s.jmp := by rw [State.returnFromCall_empty hz]
  have hjmp : s.returnFromCall.jmp = s.cstack[0] := by rw [State.returnFromCall_empty hz]
  have hslot : s.returnFromCall.cstack[0] = 0 := by simp [State.returnFromCall_empty hz]
  have hrun : s.returnFromCall.run = s.run := by rw [State.returnFromCall_empty hz]
  have hcfg : s.returnFromCall.cfg = s.cfg := by rw [State.returnFromCall_empty hz]
  have hframe := returnFromCall_empty_changes hz
  refine ⟨⟨_, exec_ret s, ⟨hic, hjmp, hslot⟩, hframe⟩, fun hf => ?step⟩
  rw [← hic]
  refine goesTo_of_exec hf (exec_ret s) (hrun.trans hf.1) hcfg hframe ⟨?_, ?_⟩
  · exact Eq.trans (advance_same _ (p := .jmp) (by simp)) hjmp
  · exact Eq.trans (advance_same _ (p := .slot 0) (by simp)) hslot

/-- A return that pops slot `k` (R207, R208). -/
theorem ret_popping {s : State} {k : Fin 100} (hk : s.top.val = k.val + 1) :
    (Does .ret s [.ic, .jmp, .top] fun t => t.ic = s.jmp ∧ t.jmp = s.cstack[k.val] ∧ t.top.val = k.val) ∧
      (Fetches s .ret → GoesTo s (unsigned (s.jmp + 1)) [.jmp, .top] fun u =>
        u.jmp = s.cstack[k.val] ∧ u.top.val = k.val) := by
  have he : exec .ret s = .next (popped s k) := congrArg Host.Outcome.next (returnFromCall_popped hk)
  refine ⟨⟨_, he, ⟨rfl, rfl, rfl⟩, popped_changes s k⟩, fun hf => ?step⟩
  refine goesTo_of_exec (t := popped s k) hf he hf.1 rfl (popped_changes s k) ⟨?_, ?_⟩
  · exact advance_same _ (p := .jmp) (by simp)
  · exact congrArg Fin.val (advance_same _ (p := .top) (by simp))

/-- Settles O32: the row of opcode 0x91, and the two cases of a return. -/
theorem endReturnsAndRestoresTheLink : Obligations.EndReturnsAndRestoresTheLink :=
  ⟨callEncodings_hold.2, fun _ => ⟨ret_empty, fun _ => ret_popping⟩⟩

/-! ## A call and its return -/

/-- Settles O33: an outermost call is undone by a return on the empty stack, any other by the pop of the slot it pushed. -/
theorem returnUndoesItsCall : Obligations.ReturnUndoesItsCall := by
  intro s t r u a hempty hroom hcall hjmp hstack htop hret
  rw [exec_call] at hcall
  rw [exec_ret] at hret
  cases hcall
  cases hret
  by_cases hz : s.jmp = 0
  · rw [callTo_outermost hz] at hjmp hstack htop
    have hr : r.top.val = 0 := (congrArg Fin.val htop).trans (hempty hz)
    rw [State.returnFromCall_empty hr]
    exact ⟨hjmp, htop, fun hne => absurd hz hne, fun _ => by simp [hstack]⟩
  · have hk : s.top.val = (⟨s.top.val, hroom hz⟩ : Fin 100).val := rfl
    rw [callTo_room hz hk] at hjmp hstack htop
    rw [returnFromCall_popped (k := ⟨s.top.val, hroom hz⟩) (congrArg Fin.val htop)]
    exact ⟨hjmp, rfl, fun _ => by simp [popped, hstack, pushed], fun h => absurd h hz⟩

/-! ## Calls inside calls -/

theorem nestCalls_cons (a : Arg16) (s : State) (site : Word) (rest : List Word) :
    nestCalls a s (site :: rest) = nestCalls a (State.callTo { s with ic := site } a) rest := rfl

/-- A call from a non-zero site inside another call uses one slot and leaves a non-zero link (R205, R206). -/
theorem nested_call {s : State} {site : Word} (hz : s.jmp ≠ 0) (hsite : site ≠ 0) (hroom : s.top.val < 100) (a : Arg16) :
    (State.callTo { s with ic := site } a).run = s.run ∧ (State.callTo { s with ic := site } a).jmp ≠ 0 ∧
      (State.callTo { s with ic := site } a).top.val = s.top.val + 1 := by
  rw [callTo_room (s := { s with ic := site }) (k := ⟨s.top.val, hroom⟩) hz rfl]
  exact ⟨rfl, hsite, rfl⟩

/-- Nested calls inside another call, as long as there are slots for them (R209). -/
theorem nestCalls_of_room {a : Arg16} {sites : List Word} {s : State} (hr : s.run = .running) (hz : s.jmp ≠ 0)
    (hsites : ∀ w ∈ sites, w ≠ 0) (hroom : s.top.val + sites.length ≤ 100) :
    ∃ t, nestCalls a s sites = some t ∧ t.run = .running ∧ t.top.val = s.top.val + sites.length := by
  induction sites generalizing s with
  | nil => exact ⟨s, rfl, hr, rfl⟩
  | cons site rest ih =>
    rw [List.length_cons] at hroom
    obtain ⟨hsite, hrest⟩ := List.forall_mem_cons.1 hsites
    obtain ⟨hrun, hjmp, htop⟩ := nested_call hz hsite (by omega) a
    obtain ⟨t, ht, htrun, httop⟩ := ih (hrun.trans hr) hjmp hrest (by omega)
    refine ⟨t, (nestCalls_cons a s site rest).trans ht, htrun, ?_⟩
    rw [httop, htop, List.length_cons]
    omega

/-- One nested call too many aborts, with every slot used (R209, R243). -/
theorem nestCalls_of_overflow {a : Arg16} {sites : List Word} {s : State} (hz : s.jmp ≠ 0)
    (hsites : ∀ w ∈ sites, w ≠ 0) (hover : s.top.val + sites.length = 101) :
    ∃ t, nestCalls a s sites = some t ∧ t.run = .abortedOob ∧ t.cause = .cstackOob ∧ t.top.val = 100 := by
  induction sites generalizing s with
  | nil =>
    rw [List.length_nil] at hover
    omega
  | cons site rest ih =>
    rw [List.length_cons] at hover
    obtain ⟨hsite, hrest⟩ := List.forall_mem_cons.1 hsites
    by_cases hfull : s.top.val = 100
    · obtain rfl : rest = [] := List.length_eq_zero_iff.1 (by omega)
      refine ⟨_, nestCalls_cons a s site [], ?_⟩
      rw [callTo_full (s := { s with ic := site }) hz hfull]
      exact ⟨rfl, rfl, hfull⟩
    · obtain ⟨-, hjmp, htop⟩ := nested_call hz hsite (by omega) a
      obtain ⟨t, ht, hend⟩ := ih hjmp hrest (by omega)
      exact ⟨t, (nestCalls_cons a s site rest).trans ht, hend⟩

/-- Settles O34: the outermost call uses no slot, and the calls inside it one each. -/
theorem nestingCapacity : Obligations.NestingCapacity := by
  intro s a sites hr hz htop hsites
  cases sites with
  | nil => exact ⟨fun _ => ⟨s, rfl, hr, htop⟩, fun h => by cases h⟩
  | cons site rest =>
    obtain ⟨hsite, hrest⟩ := List.forall_mem_cons.1 hsites
    have hfirst : nestCalls a s (site :: rest) = nestCalls a (State.linkAndGo { s with ic := site } a) rest := by
      rw [nestCalls_cons, callTo_outermost (s := { s with ic := site }) hz]
    have htop' : (State.linkAndGo { s with ic := site } a).top.val = 0 := htop
    have hjmp : (State.linkAndGo { s with ic := site } a).jmp ≠ 0 := hsite
    rw [hfirst, List.length_cons, Nat.add_sub_cancel]
    refine ⟨fun hlen => ?room, fun hlen => nestCalls_of_overflow hjmp hrest (by omega)⟩
    obtain ⟨t, ht, hrun, hdepth⟩ := nestCalls_of_room (a := a) (s := State.linkAndGo { s with ic := site } a) hr hjmp hrest
      (by omega)
    exact ⟨t, ht, hrun, by omega⟩

end Sys2Proof.Proofs.CallReturn
end

section
/-!
PROOFS. Reset and the loader (spec `70_reset_and_hazards.md` R260 to R263, `10_state.md` R47, `20_memory.md` R54): what is in
memory after a load, the other reset values, and which files and parameters start a core.
-/

namespace Sys2Proof.Proofs.Boot

open Sys2Proof.Machine Sys2Proof.Claims Sys2Proof.Proofs.Invariant

/-! ## The loaded memory -/

theorem read_loadAt_inside (m : Memory) (base : Nat) (image : List Word) {i : Nat} (h : i < image.length) :
    (Memory.loadAt m base image).read (base + i) = image[i] := by
  induction image generalizing m base i with
  | nil => cases h
  | cons w rest ih =>
    rw [Memory.loadAt]
    cases i with
    | zero =>
      rw [Memory.read_loadAt_below _ _ _ (by omega), Nat.add_zero, Memory.read_write_same]
      rfl
    | succ i =>
      have hrest := ih (m.write base w) (base + 1) (Nat.lt_of_succ_lt_succ h)
      rw [Nat.add_assoc, Nat.add_comm 1 i] at hrest
      exact hrest

theorem read_loadAt_above (m : Memory) (base : Nat) (image : List Word) {a : Nat} (h : base + image.length ≤ a) :
    (Memory.loadAt m base image).read a = m.read a := by
  induction image generalizing m base with
  | nil => rfl
  | cons w rest ih =>
    rw [List.length_cons] at h
    rw [Memory.loadAt, ih _ _ (by omega), Memory.read_write_other _ _ (by omega)]

theorem read_started (cfg : Config) (image : List Word) {i : Nat} (h : i < image.length) :
    (started cfg image).mem.read i = image[i] := by
  have hread := read_loadAt_inside [] 0 image h
  rwa [Nat.zero_add] at hread

/-- Settles O52: the image is loaded at address 0 on an empty memory. -/
theorem bootLoadsTheImage : Obligations.BootLoadsTheImage := by
  refine ⟨fun cfg image s hboot => ?loaded, fun cfg hwf => ?empty⟩
  case loaded =>
    obtain ⟨-, rfl⟩ := boot_eq_some.1 hboot
    exact ⟨fun i h => read_started cfg image h, fun i h => read_loadAt_above [] 0 image (by omega)⟩
  case empty => exact ⟨started cfg [], boot_eq_some.2 ⟨⟨hwf, Nat.zero_le _⟩, rfl⟩, fun i => rfl⟩

/-- Settles O53: the record that a reset starts with, field by field. -/
theorem resetValues : Obligations.ResetValues := by
  intro cfg image s hboot
  obtain ⟨-, rfl⟩ := boot_eq_some.1 hboot
  simp [started, State.reset, State.readReg, State.readHandle]

/-! ## The bytes of an image file -/

/-- Where byte `k` of a word stands in it (R54). -/
def byteOffset (e : Endian) (k : Nat) : Nat :=
  match e with
  | .little => 8 * k
  | .big => 24 - 8 * k

/-- Each byte of a word of the file is where its byte order puts it. -/
theorem extractLsb'_wordOfBytes (e : Endian) (b0 b1 b2 b3 : BitVec 8) :
    (wordOfBytes e b0 b1 b2 b3).extractLsb' (byteOffset e 0) 8 = b0 ∧
      (wordOfBytes e b0 b1 b2 b3).extractLsb' (byteOffset e 1) 8 = b1 ∧
      (wordOfBytes e b0 b1 b2 b3).extractLsb' (byteOffset e 2) 8 = b2 ∧
      (wordOfBytes e b0 b1 b2 b3).extractLsb' (byteOffset e 3) 8 = b3 := by
  have h0 := b0.isLt
  have h1 := b1.isLt
  have h2 := b2.isLt
  have h3 := b3.isLt
  cases e with
  | little =>
    have hw : (wordOfBytes .little b0 b1 b2 b3).toNat = ((b3.toNat * 256 + b2.toNat) * 256 + b1.toNat) * 256 + b0.toNat := by
      simp only [wordOfBytes, toNat_append_eq]
      rfl
    refine ⟨?_, ?_, ?_, ?_⟩ <;> apply BitVec.eq_of_toNat_eq <;>
      simp only [BitVec.extractLsb'_toNat, hw, byteOffset, Nat.shiftRight_eq_div_pow] <;> omega
  | big =>
    have hw : (wordOfBytes .big b0 b1 b2 b3).toNat = ((b0.toNat * 256 + b1.toNat) * 256 + b2.toNat) * 256 + b3.toNat := by
      simp only [wordOfBytes, toNat_append_eq]
      rfl
    refine ⟨?_, ?_, ?_, ?_⟩ <;> apply BitVec.eq_of_toNat_eq <;>
      simp only [BitVec.extractLsb'_toNat, hw, byteOffset, Nat.shiftRight_eq_div_pow] <;> omega

/-- A file is corrupted exactly where its length is no multiple of the word size (R263). -/
theorem imageOfBytes_eq_none (e : Endian) : ∀ bytes : List (BitVec 8),
    imageOfBytes e bytes = none ↔ bytes.length % 4 ≠ 0
  | [] => by simp [imageOfBytes]
  | [_] => by simp [imageOfBytes]
  | [_, _] => by simp [imageOfBytes]
  | [_, _, _] => by simp [imageOfBytes]
  | b0 :: b1 :: b2 :: b3 :: rest => by
    simp only [imageOfBytes, Option.map_eq_none_iff, imageOfBytes_eq_none e rest, List.length_cons]
    omega

/-- A file has four bytes for each word of its image. -/
theorem length_of_imageOfBytes {e : Endian} : ∀ {bytes : List (BitVec 8)} {ws : List Word},
    imageOfBytes e bytes = some ws → bytes.length = 4 * ws.length
  | [], ws, h => by
    cases h
    rfl
  | [_], ws, h => by cases h
  | [_, _], ws, h => by cases h
  | [_, _, _], ws, h => by cases h
  | b0 :: b1 :: b2 :: b3 :: rest, ws, h => by
    simp only [imageOfBytes, Option.map_eq_some_iff] at h
    obtain ⟨ws', hrest, rfl⟩ := h
    have ih := length_of_imageOfBytes hrest
    simp only [List.length_cons, ih]
    omega

/-- Byte `4 i + k` of a file is byte `k` of word `i` of its image, in the file's byte order (R54, R263). -/
theorem getElem?_of_imageOfBytes {e : Endian} : ∀ {bytes : List (BitVec 8)} {ws : List Word},
    imageOfBytes e bytes = some ws → ∀ (i : Nat) (k : Fin 4),
      bytes[4 * i + k.val]? = ws[i]?.map fun w => w.extractLsb' (byteOffset e k.val) 8
  | [], ws, h, i, k => by
    cases h
    simp
  | [_], ws, h, i, k => by cases h
  | [_, _], ws, h, i, k => by cases h
  | [_, _, _], ws, h, i, k => by cases h
  | b0 :: b1 :: b2 :: b3 :: rest, ws, h, i, k => by
    simp only [imageOfBytes, Option.map_eq_some_iff] at h
    obtain ⟨ws', hrest, rfl⟩ := h
    cases i with
    | zero =>
      obtain ⟨e0, e1, e2, e3⟩ := extractLsb'_wordOfBytes e b0 b1 b2 b3
      match k with
      | 0 => simp [e0]
      | 1 => simp [e1]
      | 2 => simp [e2]
      | 3 => simp [e3]
    | succ i =>
      have hindex : 4 * (i + 1) + k.val = 4 * i + k.val + 1 + 1 + 1 + 1 := by omega
      simp only [hindex, List.getElem?_cons_succ]
      exact getElem?_of_imageOfBytes hrest i k

/-- The same with the indices in range, in the words of the statement. -/
theorem getElem_of_imageOfBytes {e : Endian} {bytes : List (BitVec 8)} {ws : List Word} (h : imageOfBytes e bytes = some ws)
    {i : Nat} (hi : i < ws.length) (k : Fin 4) (hb : 4 * i + k.val < bytes.length) :
    bytes[4 * i + k.val] = ws[i].extractLsb' (byteOffset e k.val) 8 := by
  have hbyte := getElem?_of_imageOfBytes h i k
  rw [List.getElem?_eq_getElem hb, List.getElem?_eq_getElem hi] at hbyte
  exact Option.some.inj hbyte

/-! ## What the loader refuses -/

theorem boot_eq_none {cfg : Config} {image : List Word} :
    boot cfg image = none ↔ ¬cfg.wf ∨ cfg.memSize < image.length := by
  rw [← Nat.not_le, ← not_and_or]
  unfold boot
  split
  · next h => exact iff_of_false (fun e => nomatch e) fun hno => hno h
  · next h => exact iff_of_true rfl h

theorem bootFile_of_image {cfg : Config} {bytes : List (BitVec 8)} {ws : List Word}
    (h : imageOfBytes cfg.imageEndian bytes = some ws) : bootFile cfg bytes = boot cfg ws := by
  rw [bootFile, h, Option.bind_some]

theorem bootFile_eq_none (cfg : Config) (bytes : List (BitVec 8)) :
    bootFile cfg bytes = none ↔ bytes.length % 4 ≠ 0 ∨ ¬cfg.wf ∨ cfg.memSize < bytes.length / 4 := by
  cases h : imageOfBytes cfg.imageEndian bytes with
  | none => exact iff_of_true (by rw [bootFile, h, Option.bind_none]) (.inl ((imageOfBytes_eq_none _ bytes).1 h))
  | some ws =>
    have hlen := length_of_imageOfBytes h
    have hmod : ¬bytes.length % 4 ≠ 0 := by omega
    have hdiv : bytes.length / 4 = ws.length := by omega
    rw [bootFile_of_image h, boot_eq_none, hdiv, or_iff_right hmod]

/-- A core that starts from a file holds its bytes, each where the byte order puts it. -/
theorem getElem_of_bootFile {cfg : Config} {bytes : List (BitVec 8)} {s : State} (h : bootFile cfg bytes = some s) (i : Nat)
    (k : Fin 4) (hb : 4 * i + k.val < bytes.length) :
    bytes[4 * i + k.val] = (s.mem.read i).extractLsb' (byteOffset cfg.imageEndian k.val) 8 := by
  obtain ⟨ws, himage, hboot⟩ := Option.bind_eq_some_iff.1 h
  obtain ⟨-, rfl⟩ := boot_eq_some.1 hboot
  have hlen := length_of_imageOfBytes himage
  have hi : i < ws.length := by omega
  rw [read_started cfg ws hi]
  exact getElem_of_imageOfBytes himage hi k hb

/-- Settles O54: the file's length, its bytes, the bounds of the parameters, and a start from a file as both together. -/
theorem loaderRefusesWhatItMust : Obligations.LoaderRefusesWhatItMust := by
  refine ⟨imageOfBytes_eq_none, fun e bytes ws h => ⟨length_of_imageOfBytes h, fun i hi k hb => ?bytes⟩,
    fun _ _ => boot_eq_none, bootFile_eq_none, fun cfg bytes s h i k hb => ?memory⟩
  case bytes =>
    rw [getElem_of_imageOfBytes h hi k hb]
    cases e <;> rfl
  case memory =>
    rw [getElem_of_bootFile h i k hb]
    cases cfg.imageEndian <;> rfl

end Sys2Proof.Proofs.Boot
end
